-- ==== Sys2Proof/Word.lean ====
section
/-! DEFINITION. The word types of the GF8 tag engine (spec/00_scope.md R7, R10). -/

namespace Sys2Proof

/-- A field element of GF(2^8), or any other byte (R7: 8 bits, range [0,255]). -/
abbrev Byte := BitVec 8

/-- The width of the identifier, N and M (R7: 16 bits each). -/
abbrev Half := BitVec 16

/-- A register of the window, or a command word (R32, R100: 32 bits). -/
abbrev Word := BitVec 32

end Sys2Proof
end

