-- ==== Sys2Proof/Syntax.lean ====
section
/-! DEFINITION. The commands of spec/opcode_table.json, the register names of spec/10_state.md R32 and the host's
statements of spec/30_encoding.md R106, R107. -/

namespace Sys2Proof

/-- The eight commands (R103). An operand is an 8-bit field of the command word, so every operand value is legal
(R102) and no term of this type is ill-formed. -/
inductive Instr where
  /-- NOP (R210) -/
  | nop
  /-- MUL a, b (R136) -/
  | mul (a b : Byte)
  /-- MAC (R170) -/
  | mac
  /-- VERIFY t (R200) -/
  | verify (t : Byte)
  /-- COMBINE (R190) -/
  | combine
  /-- CLRY (R211) -/
  | clry
  /-- CLRC (R212) -/
  | clrc
  /-- CLRKEY (R213) -/
  | clrkey
  deriving DecidableEq, Repr

/-- The mnemonics of the assembler (R106). -/
inductive Mnemonic where
  | nop | mul | mac | verify | combine | clry | clrc | clrkey
  deriving DecidableEq, Repr

/-- One assembler line, `mnemonic` or `mnemonic op, op` (R106): the operands are integers as written, so a line may
be ill-formed (notes/assumptions/19.md). -/
structure AsmLine where
  mnemonic : Mnemonic
  operands : List Nat
  deriving DecidableEq, Repr

/-- The registers of the window (R32). -/
inductive Reg where
  | status | ctrl | cmd | result | idr | nm | iv0 | iv1 | iv2 | iv3
  | key1Push | key2Push | keycnt | yPush | yLen | tagPush | alphaPush | tLen | aLen | vmax | cmax
  deriving DecidableEq, Repr

/-- One statement of a host program (R107), as bus accesses: a byte address, a size in bytes and, for a write, the
value. An access of another size or alignment can be written down and is refused when it is made (R73). -/
inductive HostStmt where
  /-- one write access -/
  | wr (addr size : Nat) (v : Word)
  /-- one read access -/
  | rd (addr size : Nat)
  /-- read again and again until `(value &&& mask) = val` -/
  | poll (addr size : Nat) (mask val : Word)
  deriving DecidableEq, Repr

end Sys2Proof
end

