-- ==== Sys2Proof/Config.lean ====
section
/-! DEFINITION. The parameters and the free values of the model (spec/00_scope.md R8, spec/93).

Every `opaque` here has no body: no proof can learn its value, so a claim is true whatever the value is. -/

namespace Sys2Proof

/-- The platform and implementation parameters that a step only reads (R8).
They stand in State, beside the registers that show two of them (R43), so a statement about every state is a
statement about every value of them (notes/assumptions/5.md). -/
structure Params where
  /-- BASE: the byte address of the 256-byte register window (R8, R71). -/
  base : Nat
  /-- VMAX: the depth of YBUF (R8, R41). -/
  vmax : Nat
  /-- CMAX: the depth of TBUF and of ABUF (R8, R42). -/
  cmax : Nat
  deriving DecidableEq, Repr

namespace Config

/-- BASE of the machine `State.reset` describes, divided by 256 (R71: a multiple of 256). Free. -/
opaque baseIndex : Nat

/-- VMAX of the machine `State.reset` describes, less 1 (R8: 1 .. 131070). Free. -/
opaque vmaxIndex : Fin 131070

/-- CMAX of the machine `State.reset` describes, less 1 (R8: 1 .. 65535). Free. -/
opaque cmaxIndex : Fin 65535

/-- Byte `i` of the ciphertext KS gives for (key, iv, plaintext), where `State.cipher` lists none (R156). Free. -/
opaque ksByte (key iv pt : List Byte) (i : Nat) : Byte

/-- The ciphertext bytes of KS beyond the plaintext's length (R157: at least as long). Free. -/
opaque ksTail (key iv pt : List Byte) : List Byte

/-- KS_FAIL: whether a keystream request fails, one draw per request (R156), where `State.draws` lists none. Free. -/
opaque ksFail (draw : Nat) : Bool

/-- The place of LUT[a][b] in the order in which the initialiser writes the entries (R133: left unspecified). Free. -/
opaque lutRank (a b : Byte) : Fin 65536

/-- What LUT[a][b] holds before the initialiser has written it (R53: unspecified). Free. -/
opaque lutUnbuilt (a b : Byte) : Byte

/-- The parameters of the machine `State.reset` describes: legal values (R8), otherwise free. -/
def params : Params :=
  { base := 256 * baseIndex, vmax := vmaxIndex.val + 1, cmax := cmaxIndex.val + 1 }

end Config

end Sys2Proof
end

