-- ==== Sys2Proof/WellFormed.lean ====
section
/-! DEFINITION. What is well formed: an assembler line (spec/30_encoding.md R106) and the parameters
(spec/00_scope.md R8). A term of `Instr` always is: its operands are 8-bit fields (R102). -/

namespace Sys2Proof

/-- How many operands a mnemonic takes (R106). -/
def Mnemonic.arity : Mnemonic → Nat
  | .mul => 2
  | .verify => 1
  | .nop | .mac | .combine | .clry | .clrc | .clrkey => 0

/-- The line has as many operands as its mnemonic takes (R106). -/
def AsmLine.arityOk (l : AsmLine) : Bool := l.operands.length == l.mnemonic.arity

/-- Every operand is in 0..255 (R106: any other "is an assembly error"). -/
def AsmLine.rangeOk (l : AsmLine) : Bool := l.operands.all (fun x => decide (x < 256))

/-- The line has an encoding (R106). -/
def AsmLine.wellFormed (l : AsmLine) : Bool := l.arityOk && l.rangeOk

/-- BASE is 256-byte aligned (R8, R71). -/
def Params.baseOk (p : Params) : Bool := p.base % 256 == 0

/-- VMAX is in 1..131070 (R8). -/
def Params.vmaxOk (p : Params) : Bool := decide (1 ≤ p.vmax) && decide (p.vmax ≤ 131070)

/-- CMAX is in 1..65535 (R8). -/
def Params.cmaxOk (p : Params) : Bool := decide (1 ≤ p.cmax) && decide (p.cmax ≤ 65535)

/-- Every parameter has a legal value (R8). -/
def Params.wellFormed (p : Params) : Bool := p.baseOk && p.vmaxOk && p.cmaxOk

end Sys2Proof
end

