-- ==== Sys2Proof/Decode.lean ====
section
/-! DEFINITION. Decoding and encoding of command words (spec/30_encoding.md R100 to R106). -/

namespace Sys2Proof

/-- Why a word is illegal (R104). -/
inductive DecodeError where
  /-- case 1: OPC is no assigned opcode -/
  | unassignedOpcode
  /-- case 2: OPC is assigned, and a bit that its row requires to be 0 is 1 -/
  | reservedBitsSet
  deriving DecidableEq, Repr

/-- The fields of the command word (R101). -/
def opc (w : Word) : Byte := w.extractLsb' 0 8
def opa (w : Word) : Byte := w.extractLsb' 8 8
def opb (w : Word) : Byte := w.extractLsb' 16 8
def rsv (w : Word) : Byte := w.extractLsb' 24 8

/-- A row of the opcode map (R103): a word selects it when `w &&& mask = pattern`; `build` takes the operands from
the word's fields (R102). -/
structure OpcodeRow where
  pattern : Word
  mask : Word
  build : Word → Instr

/-- The opcode map (R103). -/
def opcodeMap : List OpcodeRow :=
  [ ⟨0x00000000#32, 0xFFFFFFFF#32, fun _ => .nop⟩,
    ⟨0x00000001#32, 0xFF0000FF#32, fun w => .mul (opa w) (opb w)⟩,
    ⟨0x00000002#32, 0xFFFFFFFF#32, fun _ => .mac⟩,
    ⟨0x00000003#32, 0xFFFF00FF#32, fun w => .verify (opa w)⟩,
    ⟨0x00000004#32, 0xFFFFFFFF#32, fun _ => .combine⟩,
    ⟨0x00000010#32, 0xFFFFFFFF#32, fun _ => .clry⟩,
    ⟨0x00000011#32, 0xFFFFFFFF#32, fun _ => .clrc⟩,
    ⟨0x00000012#32, 0xFFFFFFFF#32, fun _ => .clrkey⟩ ]

/-- The word selects the row (R103). -/
def OpcodeRow.selects (r : OpcodeRow) (w : Word) : Bool := w &&& r.mask == r.pattern

/-- OPC is one of the eight assigned opcodes (R104 case 1). -/
def opcAssigned (w : Word) : Bool := opcodeMap.any (fun r => opc r.pattern == opc w)

/-- Decoding, total on all 2^32 words (R104): the row the word selects, or why it is illegal. -/
def decode (w : Word) : Except DecodeError Instr :=
  match opcodeMap.find? (fun r => r.selects w) with
  | some r => .ok (r.build w)
  | none => if opcAssigned w then .error .reservedBitsSet else .error .unassignedOpcode

/-- A command word from its fields, RSV = 0 (R101, R106): `(b << 16) | (a << 8) | opcode`. -/
def commandWord (o a b : Byte) : Word := (b.setWidth 32 <<< 16) ||| (a.setWidth 32 <<< 8) ||| o.setWidth 32

/-- The word of a command (R103, R106). -/
def encode : Instr → Word
  | .nop => commandWord 0x00#8 0#8 0#8
  | .mul a b => commandWord 0x01#8 a b
  | .mac => commandWord 0x02#8 0#8 0#8
  | .verify t => commandWord 0x03#8 t 0#8
  | .combine => commandWord 0x04#8 0#8 0#8
  | .clry => commandWord 0x10#8 0#8 0#8
  | .clrc => commandWord 0x11#8 0#8 0#8
  | .clrkey => commandWord 0x12#8 0#8 0#8

/-- The command of a well-formed assembler line; an ill-formed line has none (R106). -/
def assemble (l : AsmLine) : Option Instr :=
  if l.wellFormed then
    match l.mnemonic, l.operands with
    | .nop, [] => some .nop
    | .mul, [a, b] => some (.mul (BitVec.ofNat 8 a) (BitVec.ofNat 8 b))
    | .mac, [] => some .mac
    | .verify, [t] => some (.verify (BitVec.ofNat 8 t))
    | .combine, [] => some .combine
    | .clry, [] => some .clry
    | .clrc, [] => some .clrc
    | .clrkey, [] => some .clrkey
    | _, _ => none
  else none

/-- The 32-bit word of table bits: `nbits` bits of `w`, every bit above them 0. -/
def tableWord (nbits w : Nat) : Word := BitVec.ofNat 32 (w % 2 ^ nbits)

/-- What `decode` reads from an instruction given as table bits (bit 0 the least significant bit of the word); a
command is ONE word (R100), so bits beyond 32 are no command. -/
def decodeTableWord (nbits w : Nat) : Option Instr :=
  if w % 2 ^ nbits < 2 ^ 32 then
    match decode (tableWord nbits w) with
    | .ok i => some i
    | .error _ => none
  else none

end Sys2Proof
end

