-- ==== Sys2Proof/Machine/State.lean ====
section
/-! DEFINITION. The state of the machine (spec/10_state.md), the reasons a step can stop, and the state after reset
(R53). Plain data only. -/

namespace Sys2Proof.Machine

/-- The command phase (R48). It equals STATUS.BUSY and is stored once (notes/assumptions/11.md). -/
inductive Phase where
  | idle | busy
  deriving DecidableEq, Repr

/-- The error codes (R231). The values 9 to 15 are never produced, so they have no constructor. -/
inductive ErrCode where
  | noError
  | invalidKeyLength
  | invalidIdentifier
  | vectorLengthMismatch
  | cryptoFailure
  | capacityExceeded
  | invalidParameter
  | illegalCommand
  | notReady
  deriving DecidableEq, Repr

/-- A key store: 16 bytes, the count and the overflow flag KEYCNT shows (R40). -/
structure KeyStore where
  bytes : Vector Byte 16
  cnt : Nat
  ovf : Bool
  deriving DecidableEq, Repr

/-- A fill buffer: the elements below the count, whose number is LEN, and the overflow flag (R41, R42).
What lies at and above LEN is unobservable and is not held (R54, notes/assumptions/10.md). -/
structure Buffer where
  elems : List Byte
  ovf : Bool
  deriving DecidableEq, Repr

/-- The two kinds of keystream request (R153). -/
inductive KsKind where
  | prg | prf
  deriving DecidableEq, Repr

/-- A keystream request (R153). -/
structure KsRequest where
  kind : KsKind
  key : List Byte
  iv : List Byte
  pt : List Byte
  want : Nat
  deriving DecidableEq, Repr

/-- A known answer of the supplier's cipher: KS(key, iv, pt) begins with `ct` (R156, notes/assumptions/6.md). -/
structure CipherEntry where
  key : List Byte
  iv : List Byte
  pt : List Byte
  ct : List Byte
  deriving DecidableEq, Repr

/-- Whose step comes next (R6, R83; notes/assumptions/1.md). -/
inductive Turn where
  /-- the host makes one access -/
  | host
  /-- the engine completes the command in flight -/
  | engine
  /-- the table initialiser writes its next `entries` entries -/
  | initialiser (entries : Nat)
  /-- the reset input is asserted (R260) -/
  | assertReset
  /-- the reset input is released (R260) -/
  | releaseReset
  deriving DecidableEq, Repr

/-- The whole machine: the block's state (R30 to R54), and the agents outside it that a step reads or writes. -/
structure State where
  /-- BASE, VMAX, CMAX (R8, R43); no step writes them -/
  params : Params
  /-- the reset input: true while reset is asserted (R260) -/
  resetIn : Bool
  /-- STATUS.READY (R33) -/
  ready : Bool
  /-- STATUS.BUSY, which is the phase (R33, R48) -/
  phase : Phase
  /-- STATUS.DONE (R33) -/
  done : Bool
  /-- STATUS.RVALID (R33) -/
  rvalid : Bool
  /-- STATUS.LOST (R33) -/
  lost : Bool
  /-- STATUS.ERR (R33) -/
  err : ErrCode
  /-- CTRL.IE (R34) -/
  ie : Bool
  /-- RESULT.VALUE (R36) -/
  result : Byte
  /-- IDR.ID (R37) -/
  idr : Half
  /-- NM.N (R38) -/
  n : Half
  /-- NM.M (R38) -/
  m : Half
  /-- IV0 to IV3 (R39) -/
  iv0 : Word
  iv1 : Word
  iv2 : Word
  iv3 : Word
  /-- K1, K1_CNT, K1_OVF (R40) -/
  k1 : KeyStore
  /-- K2, K2_CNT, K2_OVF (R40) -/
  k2 : KeyStore
  /-- YBUF and Y_LEN (R41) -/
  ybuf : Buffer
  /-- TBUF and T_LEN (R42) -/
  tbuf : Buffer
  /-- ABUF and A_LEN (R42) -/
  abuf : Buffer
  /-- CMDL, the last accepted command word (R48) -/
  cmdl : Word
  /-- RA, READY as sampled at acceptance (R48) -/
  ra : Bool
  /-- how many of the 65536 entries of LUT the initialiser has written (R49, R50; notes/assumptions/4.md) -/
  lutWritten : Nat
  /-- the host's coming statements (notes/assumptions/15.md) -/
  program : List HostStmt
  /-- the values the host's reads returned, oldest first (R275; notes/assumptions/15.md) -/
  reads : List Word
  /-- whose steps come next, as far as it is fixed (notes/assumptions/1.md) -/
  turns : List Turn
  /-- the requests the keystream port has issued, oldest first (R158; notes/assumptions/16.md) -/
  requests : List KsRequest
  /-- known answers of the supplier's cipher (notes/assumptions/6.md) -/
  cipher : List CipherEntry
  /-- the coming KS_FAIL draws that are fixed, true for Fail (notes/assumptions/7.md) -/
  draws : List Bool
  /-- how many free KS_FAIL draws have been taken (notes/assumptions/7.md) -/
  drawn : Nat
  deriving DecidableEq, Repr

/-- Why a step stops with a fault. -/
inductive Fault where
  /-- Raised by a host access whose address lies outside the 256-byte window: the block has no such address (R70).
  Safe: the model stops where the bus would turn to another device (notes/assumptions/14.md). -/
  | addressOutsideWindow
  deriving DecidableEq, Repr

/-- Why a step is refused. -/
inductive Refusal where
  /-- Raised by exec's arm of a command that has no meaning yet. Safe. -/
  | notModelled (mnemonic : String)
  /-- Raised by a host access inside the window that is not one aligned 32-bit word: R73 says a model refuses it.
  Safe. -/
  | undefinedAccess
  deriving DecidableEq, Repr

/-- An erased key store (R53, R213). -/
def KeyStore.empty : KeyStore := { bytes := Vector.replicate 16 0#8, cnt := 0, ovf := false }

/-- An empty buffer (R53). -/
def Buffer.empty : Buffer := { elems := [], ovf := false }

/-- The machine right after reset, the reset input released (R53, R260). The fields from `program` on are the model's own and empty
(notes/assumptions/1.md, 6.md, 7.md, 15.md, 16.md). -/
def State.reset : State where
  params := Config.params
  resetIn := false
  ready := false
  phase := .idle
  done := false
  rvalid := false
  lost := false
  err := .noError
  ie := false
  result := 0#8
  idr := 0#16
  n := 0#16
  m := 0#16
  iv0 := 0#32
  iv1 := 0#32
  iv2 := 0#32
  iv3 := 0#32
  k1 := KeyStore.empty
  k2 := KeyStore.empty
  ybuf := Buffer.empty
  tbuf := Buffer.empty
  abuf := Buffer.empty
  cmdl := 0#32
  ra := false
  lutWritten := 0
  program := []
  reads := []
  turns := []
  requests := []
  cipher := []
  draws := []
  drawn := 0

end Sys2Proof.Machine
end

