-- ==== Sys2Proof/Machine/Arith.lean ====
section
/-! DEFINITION. The field GF(2^8) and the folds over it (spec/40_field.md R130, R131; spec/42_mac.md R172;
spec/43_combine.md R190). -/

namespace Sys2Proof.Machine

/-- One left shift of `a` within 8 bits, with the reduction constant 0x1B when the vacated bit was set (R130). -/
def xtime (a : Byte) : Byte := if a.getLsbD 7 then (a <<< 1) ^^^ 0x1B#8 else a <<< 1

/-- `rounds` rounds of the document's "peasant's algorithm" on the accumulator, a and b (R130). -/
def gmulRounds : (rounds : Nat) → (acc a b : Byte) → Byte
  | 0, acc, _, _ => acc
  | k + 1, acc, a, b => gmulRounds k (if b.getLsbD 0 then acc ^^^ a else acc) (xtime a) (b >>> 1)

/-- The field product: 8 rounds from an accumulator of 0 (R130). -/
def gmul (a b : Byte) : Byte := gmulRounds 8 0#8 a b

/-- The exclusive-or of a sequence; 0 when it is empty (R11, R131). -/
def xorSum (xs : List Byte) : Byte := xs.foldl (· ^^^ ·) 0#8

/-- The exclusive-or of the products of two sequences, element by element, each product read from the table `lut`. -/
def xorProducts (lut : Byte → Byte → Byte) (xs ys : List Byte) : Byte := xorSum (List.zipWith lut xs ys)

/-- The tag fold (R172): the mask products over all coordinates, then the products of the last M coordinates
(those from index `n` on) with the PRF outputs. -/
def tagfold (lut : Byte → Byte → Byte) (r f y : List Byte) (n : Nat) : Byte :=
  xorProducts lut r y ^^^ xorProducts lut (y.drop n) f

end Sys2Proof.Machine
end

