-- ==== Sys2Proof/Machine/Operands.lean ====
section
/-! DEFINITION. The operands of the commands as the engine reads them (spec/10_state.md R38 to R42,
spec/41_keystream.md R151, R152) and the checks on them (spec/42_mac.md R171, spec/43_combine.md R190). -/

namespace Sys2Proof.Machine

/-- A 16-bit value as two little-endian bytes (R152). -/
def halfBytes (h : Half) : List Byte := [h.extractLsb' 0 8, h.extractLsb' 8 8]

/-- A 32-bit register as four little-endian bytes (R39, R72). -/
def wordBytes (w : Word) : List Byte :=
  [w.extractLsb' 0 8, w.extractLsb' 8 8, w.extractLsb' 16 8, w.extractLsb' 24 8]

/-- The 16 bytes of the IV, byte 0 first: little-endian within each word, IV0 first (R39). -/
def State.ivBytes (s : State) : List Byte :=
  wordBytes s.iv0 ++ wordBytes s.iv1 ++ wordBytes s.iv2 ++ wordBytes s.iv3

/-- L, the vector length N + M, without wrap-around (R38). -/
def State.vecLen (s : State) : Nat := s.n.toNat + s.m.toNat

/-- LEN of a buffer (R41, R42). -/
def Buffer.len (b : Buffer) : Nat := b.elems.length

/-- A key is valid when its count is 16 and its overflow flag is 0 (R40). -/
def KeyStore.valid (k : KeyStore) : Bool := k.cnt == 16 && !k.ovf

/-- The PRG plaintext of length `len`: byte i is i mod 256 (R151). -/
def prgPt (len : Nat) : List Byte := (List.range len).map (fun i => BitVec.ofNat 8 (i % 256))

/-- The PRF plaintext of identifier `id` and index `j`: two little-endian bytes each (R152). -/
def prfPt (id j : Half) : List Byte := halfBytes id ++ halfBytes j

/-- The checks MAC and VERIFY share: the first error that applies, in this order (R171). -/
def State.checkTagInputs (s : State) : Option ErrCode :=
  if !s.k1.valid then some .invalidKeyLength
  else if !s.k2.valid then some .invalidKeyLength
  else if s.idr.toNat < 1 || 100 < s.idr.toNat then some .invalidIdentifier
  else if s.n == 0#16 || s.m == 0#16 then some .invalidParameter
  else if s.params.vmax < s.vecLen then some .capacityExceeded
  else if s.ybuf.ovf || s.ybuf.len != s.vecLen then some .vectorLengthMismatch
  else none

/-- The checks of COMBINE, in this order (R190). -/
def State.checkCombineInputs (s : State) : Option ErrCode :=
  if s.tbuf.ovf || s.abuf.ovf then some .capacityExceeded
  else if s.tbuf.len != s.abuf.len then some .vectorLengthMismatch
  else none

end Sys2Proof.Machine
end

