-- ==== Sys2Proof/Machine/Flags.lean ====
section
/-! DEFINITION. The status flags and the register words that show them (spec/10_state.md R33 to R43, R51, R52). -/

namespace Sys2Proof.Machine

/-- STATUS.BUSY, which equals the phase (R48). -/
def State.busy (s : State) : Bool := s.phase == .busy

/-- The value of STATUS.ERR (R231). -/
def ErrCode.code : ErrCode → BitVec 4
  | .noError => 0
  | .invalidKeyLength => 1
  | .invalidIdentifier => 2
  | .vectorLengthMismatch => 3
  | .cryptoFailure => 4
  | .capacityExceeded => 5
  | .invalidParameter => 6
  | .illegalCommand => 7
  | .notReady => 8

/-- A word whose only bit that may be set is bit `i`. -/
def flagAt (i : Nat) (f : Bool) : Word := (BitVec.ofBool f).setWidth 32 <<< i

/-- STATUS as it reads (R33): READY[0], BUSY[1], DONE[2], RVALID[3], LOST[4], ERR[11:8], the rest 0. -/
def State.statusWord (s : State) : Word :=
  flagAt 0 s.ready ||| flagAt 1 s.busy ||| flagAt 2 s.done ||| flagAt 3 s.rvalid ||| flagAt 4 s.lost
    ||| (s.err.code.setWidth 32 <<< 8)

/-- CTRL as it reads (R34): IE[0]. -/
def State.ctrlWord (s : State) : Word := flagAt 0 s.ie

/-- NM as it reads (R38): N[15:0], M[31:16]. -/
def State.nmWord (s : State) : Word := s.n.setWidth 32 ||| (s.m.setWidth 32 <<< 16)

/-- KEYCNT as it reads (R40): K1_CNT[4:0], K1_OVF[7], K2_CNT[12:8], K2_OVF[15]. -/
def State.keycntWord (s : State) : Word :=
  (BitVec.ofNat 5 s.k1.cnt).setWidth 32 ||| flagAt 7 s.k1.ovf
    ||| ((BitVec.ofNat 5 s.k2.cnt).setWidth 32 <<< 8) ||| flagAt 15 s.k2.ovf

/-- Y_LEN, T_LEN or A_LEN as it reads: LEN in the low `width` bits, OVF[31] (R41: 17 bits; R42: 16 bits). -/
def Buffer.lenWord (width : Nat) (b : Buffer) : Word :=
  (BitVec.ofNat width b.len).setWidth 32 ||| flagAt 31 b.ovf

/-- The IRQ output: DONE and IE, at every instant (R51, R238). -/
def State.irq (s : State) : Bool := s.done && s.ie

/-- Quiescent: no command in flight (R275); no keystream request is outstanding between two steps (R48). -/
def State.quiescent (s : State) : Bool := s.phase == .idle

end Sys2Proof.Machine
end

