-- ==== Sys2Proof/Machine/Ops.lean ====
section
/-! DEFINITION. The named operations over the machine's state: the command lifecycle (spec/10_state.md R44 to R46),
the product table (spec/40_field.md R132, R133), register reads and writes (spec/20_memory.md R74 to R81), the keystream
port (spec/41_keystream.md R153 to R159) and reset (spec/70_reset_and_hazards.md R260, R261). -/

namespace Sys2Proof.Machine

/-! ## The command lifecycle -/

/-- Acceptance: the host's write of `w` to CMD while BUSY = 0 (R44). It also clears the last error's report (R236). -/
def State.accept (w : Word) (s : State) : State :=
  { s with
    cmdl := w, ra := s.ready, phase := .busy, done := false, rvalid := false, err := .noError, result := 0#8 }

/-- Successful completion with the result `v` (R45). -/
def State.finishOk (v : Byte) (s : State) : State :=
  { s with result := v, rvalid := true, err := .noError, phase := .idle, done := true }

/-- Error completion with the code `e`: the block's whole analogue of taking an exception (R46, R234). It saves the
code in ERR and changes nothing else but STATUS and RESULT (R235). There is no handler and no return (R236). -/
def State.finishErr (e : ErrCode) (s : State) : State :=
  { s with result := 0#8, rvalid := false, err := e, phase := .idle, done := true }

/-! ## The product table -/

/-- The number of entries of LUT (R49). -/
def lutSize : Nat := 65536

/-- A read of LUT[a][b]. A written entry is gmul(a, b); an entry that the initialiser has not written holds a free
value (R53, R132, R133; notes/assumptions/4.md). -/
def State.lutRead (s : State) (a b : Byte) : Byte :=
  if lutSize ≤ s.lutWritten then gmul a b
  else if (Config.lutRank a b).val < s.lutWritten then gmul a b
  else Config.lutUnbuilt a b

/-- The table initialiser writes its next `entries` entries and, after the last of the table, sets READY (R133).
Once READY = 1 it has nothing to do. -/
def State.initialise (entries : Nat) (s : State) : State :=
  if s.ready then s
  else
    { s with
      lutWritten := min lutSize (s.lutWritten + entries),
      ready := decide (lutSize ≤ s.lutWritten + entries) }

/-! ## The register window -/

/-- The byte offset of a register (R32). -/
def regOffset : Reg → Nat
  | .status => 0x00 | .ctrl => 0x04 | .cmd => 0x08 | .result => 0x0C
  | .idr => 0x10 | .nm => 0x14 | .iv0 => 0x18 | .iv1 => 0x1C | .iv2 => 0x20 | .iv3 => 0x24
  | .key1Push => 0x28 | .key2Push => 0x2C | .keycnt => 0x30 | .yPush => 0x34 | .yLen => 0x38
  | .tagPush => 0x3C | .alphaPush => 0x40 | .tLen => 0x44 | .aLen => 0x48 | .vmax => 0x4C | .cmax => 0x50

/-- The register at a byte offset; the offsets 0x54 to 0xFC are reserved and name none (R32, R71). -/
def regAt (off : Nat) : Option Reg :=
  [Reg.status, .ctrl, .cmd, .result, .idr, .nm, .iv0, .iv1, .iv2, .iv3, .key1Push, .key2Push, .keycnt, .yPush, .yLen,
    .tagPush, .alphaPush, .tLen, .aLen, .vmax, .cmax].find? (fun r => regOffset r == off)

/-- The guarded registers (R47). -/
def regGuarded : Reg → Bool
  | .cmd | .idr | .nm | .iv0 | .iv1 | .iv2 | .iv3 | .key1Push | .key2Push | .yPush | .tagPush | .alphaPush => true
  | .status | .ctrl | .result | .keycnt | .yLen | .tLen | .aLen | .vmax | .cmax => false

/-- The value of a register as it reads; a write-only register reads 0 (R74). -/
def State.readReg (s : State) : Reg → Word
  | .status => s.statusWord
  | .ctrl => s.ctrlWord
  | .result => s.result.setWidth 32
  | .idr => s.idr.setWidth 32
  | .nm => s.nmWord
  | .iv0 => s.iv0
  | .iv1 => s.iv1
  | .iv2 => s.iv2
  | .iv3 => s.iv3
  | .keycnt => s.keycntWord
  | .yLen => s.ybuf.lenWord 17
  | .tLen => s.tbuf.lenWord 16
  | .aLen => s.abuf.lenWord 16
  | .vmax => BitVec.ofNat 32 s.params.vmax
  | .cmax => BitVec.ofNat 32 s.params.cmax
  | .cmd | .key1Push | .key2Push | .yPush | .tagPush | .alphaPush => 0#32

/-- RegRead of an admitted offset: it changes no state; a reserved offset reads 0 (R71, R74; notes/assumptions/20.md). -/
def State.regRead (s : State) (off : Nat) : Word :=
  match regAt off with
  | some r => s.readReg r
  | none => 0#32

/-- A push of the byte v[7:0] into a key store (R76). -/
def KeyStore.push (v : Word) (k : KeyStore) : KeyStore :=
  if h : k.cnt < 16 then { k with bytes := k.bytes.set k.cnt (v.extractLsb' 0 8) h, cnt := k.cnt + 1 }
  else { k with ovf := true }

/-- A push of the byte v[7:0] into a buffer of depth `cap` (R77, R78). -/
def Buffer.push (cap : Nat) (v : Word) (b : Buffer) : Buffer :=
  if b.len < cap then { b with elems := b.elems ++ [v.extractLsb' 0 8] } else { b with ovf := true }

/-- A write to STATUS, whatever BUSY is: DONE and LOST are write-1-to-clear, all other bits ignore it (R79). -/
def State.writeStatus (v : Word) (s : State) : State :=
  { s with
    done := if v.getLsbD 2 = true then false else s.done, lost := if v.getLsbD 4 = true then false else s.lost }

/-- What a write does to a register that takes it, BUSY being 0 if the register is guarded (R75 to R81). -/
def State.writeReg (r : Reg) (v : Word) (s : State) : State :=
  match r with
  | .result | .keycnt | .yLen | .tLen | .aLen | .vmax | .cmax => s
  | .status => s.writeStatus v
  | .ctrl => { s with ie := v.getLsbD 0 }
  | .cmd => s.accept v
  | .idr => { s with idr := v.extractLsb' 0 16 }
  | .nm => { s with n := v.extractLsb' 0 16, m := v.extractLsb' 16 16 }
  | .iv0 => { s with iv0 := v }
  | .iv1 => { s with iv1 := v }
  | .iv2 => { s with iv2 := v }
  | .iv3 => { s with iv3 := v }
  | .key1Push => { s with k1 := s.k1.push v }
  | .key2Push => { s with k2 := s.k2.push v }
  | .yPush => { s with ybuf := s.ybuf.push s.params.vmax v }
  | .tagPush => { s with tbuf := s.tbuf.push s.params.cmax v }
  | .alphaPush => { s with abuf := s.abuf.push s.params.cmax v }

/-- RegWrite of an admitted offset, in the order of precedence of R75: a reserved offset ignores it, and a guarded
register drops it while BUSY = 1 and sets LOST (R47). -/
def State.regWrite (off : Nat) (v : Word) (s : State) : State :=
  match regAt off with
  | none => s
  | some r => if regGuarded r && s.busy then { s with lost := true } else s.writeReg r v

/-- A host access (R73) to a window at `base`: the offset in the window, or why the model stops. An address outside
the window is not the block's. DESIGN CHOICE (notes/assumptions/14.md): the first byte address decides which stop it is, so an
access that begins below `base` and reaches into the window is one outside the window. -/
def admitAccess (base addr size : Nat) : Host.Outcome Nat Fault Refusal :=
  if addr < base || base + 256 ≤ addr then .fault .addressOutsideWindow
  else if size == 4 && addr % 4 == 0 then .next (addr - base)
  else .refused .undefinedAccess

/-! ## The keystream port -/

/-- The ciphertext KS gives (R156): a known answer where `State.cipher` lists one, free bytes elsewhere, and at least
as long as the plaintext (R157; notes/assumptions/6.md). -/
def State.ks (s : State) (key iv pt : List Byte) : List Byte :=
  let known :=
    match s.cipher.find? (fun e => e.key == key && e.iv == iv && e.pt == pt) with
    | some e => e.ct
    | none => []
  known ++ (List.range (pt.length - known.length)).map (fun i => Config.ksByte key iv pt (known.length + i))
    ++ Config.ksTail key iv pt

/-- The `k`-th coming KS_FAIL draw, counted from 0 (R156): true for Fail. -/
def State.draw (s : State) (k : Nat) : Bool :=
  match s.draws[k]? with
  | some d => d
  | none => Config.ksFail (s.drawn + (k - s.draws.length))

/-- The keystream port after `k` more draws have been taken. -/
def State.dropDraws (k : Nat) (s : State) : State :=
  { s with draws := s.draws.drop k, drawn := s.drawn + (k - s.draws.length) }

/-- One keystream request (R155, R156): it is issued, and answered Ok with the ciphertext, or Fail (none). -/
def State.ksQuery (q : KsRequest) (s : State) : Option (List Byte) × State :=
  let t := { s.dropDraws 1 with requests := s.requests ++ [q] }
  if s.draw 0 then (none, t) else (some (s.ks q.key q.iv q.pt), t)

/-! ## Reset -/

/-- Every piece of the block's state takes the value of R53, whatever the phase (R260, R261). The parameters stay, and so
do the reset input and the agents outside the block (notes/assumptions/13.md). -/
def State.resetBlock (s : State) : State :=
  { State.reset with
    params := s.params, resetIn := s.resetIn, program := s.program, reads := s.reads, turns := s.turns, requests := s.requests,
    cipher := s.cipher, draws := s.draws, drawn := s.drawn }

/-- The reset input is asserted (R260). -/
def State.assertReset (s : State) : State := { s.resetBlock with resetIn := true }

/-- The reset input is released: at its release too every piece of state takes the value of R53 (R260). Where reset is
not asserted there is no release (notes/assumptions/17.md). -/
def State.releaseReset (s : State) : State := if s.resetIn then { s.resetBlock with resetIn := false } else s

end Sys2Proof.Machine
end

