-- ==== Sys2Proof/Machine/Combine.lean ====
section
/-! DEFINITION. COMBINE (spec/43_combine.md R190). -/

namespace Sys2Proof.Machine

/-- COMBINE: the field-linear combination of the tags under the coefficients (R190). It reads no key (R193). -/
def execCombine (s : State) : Host.Outcome State Fault Refusal :=
  .next
    (if !s.ra then s.finishErr .notReady
    else
      match s.checkCombineInputs with
      | some e => s.finishErr e
      | none => s.finishOk (xorProducts s.lutRead s.abuf.elems s.tbuf.elems))

end Sys2Proof.Machine
end

