-- ==== Sys2Proof/Machine/Field.lean ====
section
/-! DEFINITION. MUL (spec/40_field.md R136). -/

namespace Sys2Proof.Machine

/-- MUL: one product of the field, read from the product table (R134, R136). -/
def execMul (a b : Byte) (s : State) : Host.Outcome State Fault Refusal :=
  .next (if s.ra then s.finishOk (s.lutRead a b) else s.finishErr .notReady)

end Sys2Proof.Machine
end

