-- ==== Sys2Proof/Machine/Housekeeping.lean ====
section
/-! DEFINITION. NOP, CLRY, CLRC and CLRKEY (spec/45_housekeeping.md R210 to R214). None tests RA (R214). -/

namespace Sys2Proof.Machine

/-- NOP completes with no effect (R210). -/
def execNop (s : State) : Host.Outcome State Fault Refusal := .next (s.finishOk 0#8)

/-- CLRY empties the vector buffer (R211). -/
def execClry (s : State) : Host.Outcome State Fault Refusal :=
  .next ({ s with ybuf := Buffer.empty }.finishOk 0#8)

/-- CLRC empties the tag and coefficient buffers (R212). -/
def execClrc (s : State) : Host.Outcome State Fault Refusal :=
  .next ({ s with tbuf := Buffer.empty, abuf := Buffer.empty }.finishOk 0#8)

/-- CLRKEY erases both keys, their counts and their overflow flags (R213). -/
def execClrkey (s : State) : Host.Outcome State Fault Refusal :=
  .next ({ s with k1 := KeyStore.empty, k2 := KeyStore.empty }.finishOk 0#8)

end Sys2Proof.Machine
end

