-- ==== Sys2Proof/Machine/Keystream.lean ====
section
/-! DEFINITION. The keystream request formatter (spec/41_keystream.md R151 to R161) and the recomputation of a tag,
which MAC and VERIFY share (spec/42_mac.md R170, spec/44_verify.md R200). -/

namespace Sys2Proof.Machine

/-- The PRG request of a command (R153): key k1, the IV, PRG_PT(L), L bytes wanted. -/
def State.prgRequest (s : State) : KsRequest :=
  { kind := .prg, key := s.k1.bytes.toList, iv := s.ivBytes, pt := prgPt s.vecLen, want := s.vecLen }

/-- The PRF request of index `j` (R153): key k2, the same IV (R154), PRF_PT(ID, j), one byte wanted. -/
def State.prfRequest (s : State) (j : Nat) : KsRequest :=
  { kind := .prf, key := s.k2.bytes.toList, iv := s.ivBytes, pt := prfPt s.idr (BitVec.ofNat 16 j), want := 1 }

/-- The PRF requests for `left` indexes from `j` on, in ascending order, each after the previous one's Ok, and none
after the first Fail (R158, R159). The first byte of each answer is taken (R155). -/
def State.queryPrfs : (left j : Nat) → State → Option (List Byte) × State
  | 0, _, s => (some [], s)
  | left + 1, j, s =>
    match s.ksQuery (s.prfRequest j) with
    | (none, t) => (none, t)
    | (some c, t) =>
      match State.queryPrfs left (j + 1) t with
      | (none, u) => (none, u)
      | (some f, u) => (some (c.headD 0#8 :: f), u)

/-- The keystream of a tag, r and f: one PRG request, then the M PRF requests (R158). So when k PRF
requests are answered Ok and the next one fails, R161's k + 1 PRF requests have been issued, after the PRG request, as
R158, R159 and V70 give (R161's count read as that of the PRF requests: DEDUCED, notes/assumptions/21.md). -/
def State.queryKeystream (s : State) : Option (List Byte × List Byte) × State :=
  match s.ksQuery s.prgRequest with
  | (none, t) => (none, t)
  | (some c, t) =>
    match State.queryPrfs s.m.toNat 0 t with
    | (none, u) => (none, u)
    | (some f, u) => (some (c.take s.vecLen, f), u)

/-- The completion that MAC and VERIFY share (R170, R200): readiness, the input checks, the keystream, the tag, and
the result that `value` makes of the tag. -/
def State.completeTag (value : Byte → Byte) (s : State) : State :=
  if !s.ra then s.finishErr .notReady
  else
    match s.checkTagInputs with
    | some e => s.finishErr e
    | none =>
      match s.queryKeystream with
      | (none, t) => t.finishErr .cryptoFailure
      | (some (r, f), t) => t.finishOk (value (tagfold t.lutRead r f t.ybuf.elems t.n.toNat))

end Sys2Proof.Machine
end

