-- ==== Sys2Proof/Machine/Tag.lean ====
section
/-! DEFINITION. MAC and VERIFY (spec/42_mac.md R170, spec/44_verify.md R200). -/

namespace Sys2Proof.Machine

/-- MAC: the tag of the vector in YBUF (R170). -/
def execMac (s : State) : Host.Outcome State Fault Refusal := .next (s.completeTag id)

/-- VERIFY: recomputes the tag as MAC does and yields only whether it equals the claimed tag `t` (R200, R201). -/
def execVerify (t : Byte) (s : State) : Host.Outcome State Fault Refusal :=
  .next (s.completeTag (fun tc => if tc = t then 1#8 else 0#8))

end Sys2Proof.Machine
end

