-- ==== Sys2Proof/Machine/Dispatch.lean ====
section
/-! DEFINITION. The completion step of a decoded command: one arm per constructor of Instr. -/

namespace Sys2Proof.Machine

def exec (i : Instr) (s : State) : Host.Outcome State Fault Refusal :=
  match i with
  | .nop => Sys2Proof.Machine.execNop s
  | .mul a b => Sys2Proof.Machine.execMul a b s
  | .mac => Sys2Proof.Machine.execMac s
  | .verify t => Sys2Proof.Machine.execVerify t s
  | .combine => Sys2Proof.Machine.execCombine s
  | .clry => Sys2Proof.Machine.execClry s
  | .clrc => Sys2Proof.Machine.execClrc s
  | .clrkey => Sys2Proof.Machine.execClrkey s

end Sys2Proof.Machine
end

