-- ==== Sys2Proof/Machine/Agents.lean ====
section
/-! DEFINITION. One step of each agent (spec/00_scope.md R6), and whose step comes next (spec/20_memory.md R83). -/

namespace Sys2Proof.Machine

/-- The engine's completion step (R104, R136 to R213): the accepted word is decoded; an illegal word completes with
ILLEGAL_COMMAND. With no command in flight the engine has nothing to do (notes/assumptions/17.md). -/
def engineTurn (s : State) : Host.Outcome State Fault Refusal :=
  match s.phase with
  | .idle => .next s
  | .busy =>
    match decode s.cmdl with
    | .ok i => exec i s
    | .error _ => .next (s.finishErr .illegalCommand)

/-- One statement of the host (R107). A read's value is kept in `reads`; a poll stays the host's next statement until
its condition holds. With no statement left the host has nothing to do (notes/assumptions/15.md, 17.md). -/
def hostTurn (s : State) : Host.Outcome State Fault Refusal :=
  match s.program with
  | [] => .next s
  | .wr addr size v :: rest =>
    match admitAccess s.params.base addr size with
    | .next off => .next ({ s with program := rest }.regWrite off v)
    | .fault r => .fault r
    | .refused r => .refused r
  | .rd addr size :: rest =>
    match admitAccess s.params.base addr size with
    | .next off => .next { s with program := rest, reads := s.reads ++ [s.regRead off] }
    | .fault r => .fault r
    | .refused r => .refused r
  | .poll addr size mask val :: rest =>
    match admitAccess s.params.base addr size with
    | .next off =>
      .next
        { s with
          program := if s.regRead off &&& mask = val then rest else s.program,
          reads := s.reads ++ [s.regRead off] }
    | .fault r => .fault r
    | .refused r => .refused r

/-- A step's outcome while reset is asserted: whatever the step did, every piece of the block's state takes the value of
R53 again (R260). -/
def holdReset (o : Host.Outcome State Fault Refusal) : Host.Outcome State Fault Refusal :=
  match o with
  | .next t => .next t.resetBlock
  | .fault r => .fault r
  | .refused r => .refused r

/-- The step of the agent whose turn it is (R6). While reset is asserted no command is in flight and the initialiser has
not started, so the engine and the initialiser have nothing to do, and a host access reads the reset values and leaves
nothing written (R260; notes/assumptions/22.md). -/
def runTurn (turn : Turn) (s : State) : Host.Outcome State Fault Refusal :=
  match turn with
  | .host => if s.resetIn then holdReset (hostTurn s.resetBlock) else hostTurn s
  | .engine => if s.resetIn then .next s.resetBlock else engineTurn s
  | .initialiser entries => .next (if s.resetIn then s.resetBlock else s.initialise entries)
  | .assertReset => .next s.assertReset
  | .releaseReset => .next s.releaseReset

/-- Whose turn it is where `turns` does not say: the release of an asserted reset, else the engine's while a command is in
flight, else the initialiser's while the table is not complete, else the host's (notes/assumptions/1.md). -/
def State.defaultTurn (s : State) : Turn :=
  if s.resetIn then .releaseReset
  else if s.busy then .engine else if !s.ready then .initialiser lutSize else .host

/-- Whose turn it is. -/
def State.nextTurn (s : State) : Turn :=
  match s.turns with
  | turn :: _ => turn
  | [] => s.defaultTurn

/-- The turn is taken. -/
def State.popTurn (s : State) : State := { s with turns := s.turns.tail }

end Sys2Proof.Machine
end

