-- ==== Sys2Proof/Machine/Step.lean ====
section
/-! DEFINITION. One step of the machine: one atomic step of one agent (spec/20_memory.md R82, R83). -/

namespace Sys2Proof.Machine

/-- The agent whose turn it is takes one step. -/
def step (s : State) : Host.Outcome State Fault Refusal := runTurn s.nextTurn s.popTurn

/-- `s` with reset released, the command of these table bits accepted (R44) and the engine's turn next, so that the very
next step completes it. The block fetches nothing (R31): a command comes by a host write to CMD, and this stands for that write
(notes/assumptions/2.md). -/
def State.withFetchWord (s : State) (nbits w : Nat) : State :=
  { s.accept (tableWord nbits w) with resetIn := false, turns := .engine :: s.turns }

end Sys2Proof.Machine
end

