-- ==== Sys2Proof/Machine/HostProgram.lean ====
section
/-! DEFINITION. The host syntax of spec/30_encoding.md R107 and R108 as bus accesses. Every definition takes the
window's base address first; a host program is a list of the statements they give. -/

namespace Sys2Proof.Machine

/-- `wr REG, v` (R107): one 32-bit write. -/
def wr (base : Nat) (r : Reg) (v : Word) : HostStmt := .wr (base + regOffset r) 4 v

/-- `rd REG` (R107): one 32-bit read. -/
def rd (base : Nat) (r : Reg) : HostStmt := .rd (base + regOffset r) 4

/-- `poll REG, mask, val` (R107). -/
def poll (base : Nat) (r : Reg) (mask val : Word) : HostStmt := .poll (base + regOffset r) 4 mask val

/-- `cmd <command>` (R107): a write of the command's word to CMD. -/
def cmd (base : Nat) (i : Instr) : HostStmt := wr base .cmd (encode i)

/-- `waitready` (R108). -/
def waitready (base : Nat) : List HostStmt := [poll base .status 0x00000001#32 0x00000001#32]

/-- `wait` (R108). -/
def waitIdle (base : Nat) : List HostStmt := [poll base .status 0x00000002#32 0x00000000#32]

/-- `do <command>` (R108): the command, then `wait`. -/
def doCmd (base : Nat) (i : Instr) : List HostStmt := cmd base i :: waitIdle base

/-- `setid i` (R108). -/
def setid (base : Nat) (i : Word) : List HostStmt := [wr base .idr i]

/-- `setnm n, m` (R108): `(m << 16) | n`. -/
def setnm (base : Nat) (n m : Half) : List HostStmt :=
  [wr base .nm ((m.setWidth 32 <<< 16) ||| n.setWidth 32)]

/-- Four bytes as a word, the first in the low byte (R108: `{b3,b2,b1,b0}`). -/
def packWord (b0 b1 b2 b3 : Byte) : Word :=
  (b3.setWidth 32 <<< 24) ||| (b2.setWidth 32 <<< 16) ||| (b1.setWidth 32 <<< 8) ||| b0.setWidth 32

/-- `setiv b0, ..., b15` (R108). -/
def setiv (base : Nat) (iv : Vector Byte 16) : List HostStmt :=
  [ wr base .iv0 (packWord iv[0] iv[1] iv[2] iv[3]),
    wr base .iv1 (packWord iv[4] iv[5] iv[6] iv[7]),
    wr base .iv2 (packWord iv[8] iv[9] iv[10] iv[11]),
    wr base .iv3 (packWord iv[12] iv[13] iv[14] iv[15]) ]

/-- One push per byte, in order (R108). -/
def pushAll (base : Nat) (port : Reg) (bytes : List Byte) : List HostStmt :=
  bytes.map (fun b => wr base port (b.setWidth 32))

/-- `ldkey1 b0, ..., bk` (R108). -/
def ldkey1 (base : Nat) (bytes : List Byte) : List HostStmt := pushAll base .key1Push bytes

/-- `ldkey2 b0, ..., bk` (R108). -/
def ldkey2 (base : Nat) (bytes : List Byte) : List HostStmt := pushAll base .key2Push bytes

/-- `ldvec e0, ..., ek` (R108). -/
def ldvec (base : Nat) (elems : List Byte) : List HostStmt := pushAll base .yPush elems

/-- `ldtags t0, ..., tk` (R108). -/
def ldtags (base : Nat) (tags : List Byte) : List HostStmt := pushAll base .tagPush tags

/-- `ldalphas a0, ..., ak` (R108). -/
def ldalphas (base : Nat) (alphas : List Byte) : List HostStmt := pushAll base .alphaPush alphas

/-- `ack` (R108): clears DONE and LOST. -/
def ackAll (base : Nat) : List HostStmt := [wr base .status 0x00000014#32]

end Sys2Proof.Machine
end

