-- ==== Sys2Proof/Safety.lean ====
section
/-! DEFINITION. The invariant of the machine, what a safe run is, and the terms of spec/42_mac.md in which the claims
about tags are written. -/

namespace Sys2Proof.Machine

/-- A key store in a state a run can reach (R40, R53, R76, R213): the count is 0..16, the flag is set only when the
count is 16, and the bytes that have not been pushed are 0x00. -/
structure KeyStore.Inv (k : KeyStore) : Prop where
  cnt_le : k.cnt ≤ 16
  ovf_full : k.ovf = true → k.cnt = 16
  unpushed_zero : ∀ i, ∀ h : i < 16, k.cnt ≤ i → k.bytes[i] = 0#8

/-- A buffer of depth `cap` in a state a run can reach (R41, R42, R77, R78): the count is 0..cap, and the flag is set
only when the buffer is full. -/
structure Buffer.Inv (cap : Nat) (b : Buffer) : Prop where
  len_le : b.len ≤ cap
  ovf_full : b.ovf = true → b.len = cap

/-- Every piece of the block's state holds the value of R53. -/
def State.BlockAtReset (s : State) : Prop :=
  s.ready = false ∧ s.phase = .idle ∧ s.done = false ∧ s.rvalid = false ∧ s.lost = false ∧ s.err = .noError ∧
  s.ie = false ∧ s.result = 0#8 ∧ s.idr = 0#16 ∧ s.n = 0#16 ∧ s.m = 0#16 ∧ s.iv0 = 0#32 ∧ s.iv1 = 0#32 ∧
  s.iv2 = 0#32 ∧ s.iv3 = 0#32 ∧ s.k1 = KeyStore.empty ∧ s.k2 = KeyStore.empty ∧ s.ybuf = Buffer.empty ∧
  s.tbuf = Buffer.empty ∧ s.abuf = Buffer.empty ∧ s.cmdl = 0#32 ∧ s.ra = false ∧ s.lutWritten = 0

/-- The invariant every step keeps. -/
structure State.Inv (s : State) : Prop where
  /-- the parameters are legal (R8) -/
  params_wf : s.params.wellFormed = true
  /-- while reset is asserted every piece of the block's state holds the value of R53 (R260) -/
  reset_held : s.resetIn = true → s.BlockAtReset
  /-- READY = 1 exactly when the table is complete (R50, R133) -/
  ready_iff : s.ready = true ↔ s.lutWritten = lutSize
  /-- the table has 65536 entries (R49) -/
  written_le : s.lutWritten ≤ lutSize
  /-- RA was sampled from READY, which stays 1 until reset (R44, R133) -/
  ra_ready : s.ra = true → s.ready = true
  /-- while a command is in flight DONE, RVALID and ERR are 0 (R44) -/
  busy_clear : s.phase = .busy → s.done = false ∧ s.rvalid = false ∧ s.err = .noError
  /-- RESULT is 0 while it has no meaning (R36, R268) -/
  result_zero : s.rvalid = false → s.result = 0#8
  /-- a valid result and an error exclude each other (R45, R46, R202) -/
  valid_no_err : s.rvalid = true → s.err = .noError
  k1_inv : s.k1.Inv
  k2_inv : s.k2.Inv
  ybuf_inv : s.ybuf.Inv s.params.vmax
  tbuf_inv : s.tbuf.Inv s.params.cmax
  abuf_inv : s.abuf.Inv s.params.cmax

/-- The host statement is one aligned 32-bit access inside the window (R73). -/
def stmtAdmitted (base : Nat) : HostStmt → Bool
  | .wr addr size _ | .rd addr size | .poll addr size _ _ =>
    decide (base ≤ addr) && decide (addr < base + 256) && size == 4 && addr % 4 == 0

/-- The next step is taken under reset: the reset input is asserted, or this step asserts it (R260). -/
def State.underReset (s : State) : Bool := s.resetIn || s.nextTurn == .assertReset

/-- A host program keeps to the accesses the spec defines (R73, R89). -/
def State.programAdmitted (s : State) : Bool := s.program.all (stmtAdmitted s.params.base)

/-- A step is safe when it neither faults nor is refused. -/
def StepSafe (s : State) : Prop := ∃ t, step s = .next t

/-- The states whose next `k` steps are all safe. -/
def SafeFor : Nat → State → Prop
  | 0, _ => True
  | k + 1, s => ∃ t, step s = .next t ∧ SafeFor k t

/-! ## The terms of the claims about tags

These follow the rules' own index notation and are independent of the lists `execMac` works on. -/

/-- XOR over i in 0..k-1 of e(i) (R11). -/
def xorOver (k : Nat) (e : Nat → Byte) : Byte := (List.range k).foldl (fun t i => t ^^^ e i) 0#8

/-- What MAC and VERIFY ask of their operands (R171, R263 item 4). -/
structure State.TagInputsOk (s : State) : Prop where
  key1 : s.k1.cnt = 16 ∧ s.k1.ovf = false
  key2 : s.k2.cnt = 16 ∧ s.k2.ovf = false
  ident : 1 ≤ s.idr.toNat ∧ s.idr.toNat ≤ 100
  posN : 1 ≤ s.n.toNat
  posM : 1 ≤ s.m.toNat
  fits : s.n.toNat + s.m.toNat ≤ s.params.vmax
  filled : s.ybuf.ovf = false ∧ s.ybuf.elems.length = s.n.toNat + s.m.toNat

/-- Coordinate y[i] of the vector (R41). -/
def State.yAt (s : State) (i : Nat) : Byte := s.ybuf.elems.getD i 0#8

/-- Mask r[i]: byte i of KS(K1, IV, PRG_PT(N+M)) (R155). -/
def State.maskAt (s : State) (i : Nat) : Byte :=
  (s.ks s.k1.bytes.toList s.ivBytes (prgPt (s.n.toNat + s.m.toNat))).getD i 0#8

/-- PRF output f[j]: byte 0 of KS(K2, IV, PRF_PT(ID, j)) (R155). -/
def State.prfAt (s : State) (j : Nat) : Byte :=
  (s.ks s.k2.bytes.toList s.ivBytes (prfPt s.idr (BitVec.ofNat 16 j))).getD 0 0#8

/-- Weight w_k of coordinate k (R175, R176). -/
def State.weightAt (s : State) (k : Nat) : Byte :=
  if k < s.n.toNat then s.maskAt k else s.maskAt k ^^^ s.prfAt (k - s.n.toNat)

/-- The tag of the vector in YBUF, as the loops of R172 compute it. -/
def State.tagOf (s : State) : Byte :=
  xorOver (s.n.toNat + s.m.toNat) (fun i => gmul (s.maskAt i) (s.yAt i))
    ^^^ xorOver s.m.toNat (fun j => gmul (s.yAt (s.n.toNat + j)) (s.prfAt j))

/-- The M + 1 requests of a MAC or VERIFY, in order (R153, R158, R161). -/
def State.tagRequests (s : State) : List KsRequest :=
  { kind := .prg, key := s.k1.bytes.toList, iv := s.ivBytes, pt := prgPt (s.n.toNat + s.m.toNat),
    want := s.n.toNat + s.m.toNat } ::
  (List.range s.m.toNat).map (fun j =>
    { kind := .prf, key := s.k2.bytes.toList, iv := s.ivBytes, pt := prfPt s.idr (BitVec.ofNat 16 j), want := 1 })

/-- Two states with the same N, M, keys, ID, IV and supplier (R191). -/
structure State.SameContext (s t : State) : Prop where
  n_eq : s.n = t.n
  m_eq : s.m = t.m
  k1_eq : s.k1 = t.k1
  k2_eq : s.k2 = t.k2
  id_eq : s.idr = t.idr
  iv0_eq : s.iv0 = t.iv0
  iv1_eq : s.iv1 = t.iv1
  iv2_eq : s.iv2 = t.iv2
  iv3_eq : s.iv3 = t.iv3
  cipher_eq : s.cipher = t.cipher

/-- One successful MAC of a generation, and the coefficient its tag is combined under (R191). -/
structure TagRun where
  before : State
  after : State
  alpha : Byte

/-- `run` is a successful MAC in the context of `z` (R191). -/
structure TagRun.Ok (run : TagRun) (z : State) : Prop where
  inv : run.before.Inv
  context : run.before.SameContext z
  mac : exec .mac run.before = .next run.after
  success : run.after.rvalid = true

/-- What a host can read agrees on the two states: every word slot of the window (R70, R73, R74). -/
def State.ReadsAlike (s t : State) : Prop := ∀ off, off ≤ 0xFC → off % 4 = 0 → s.regRead off = t.regRead off

end Sys2Proof.Machine
end

