-- ==== Sys2Proof/Certificates/Slice0/Obligations.lean ====
section
/-! DEFINITION. The statements for the provers. Each docstring names the rules of spec/ it formalises.
A next state written as a record update says the whole effect: every field the update does not name is unchanged. -/

open Sys2Proof Sys2Proof.Machine

/-! ## Encoding -/

/-- Decoding the word of a command gives the command back, for every operand value (R102, R103, R106). -/
def Obligations.EncodeThenDecode : Prop :=
  ∀ i : Instr, decode (encode i) = .ok i

/-- Encoding what a word decodes to gives the word back: every legal word has one meaning and no bit of it is dropped
(R103, R104). -/
def Obligations.DecodeThenEncode : Prop :=
  ∀ (w : Word) (i : Instr), decode w = .ok i → encode i = w

/-- Decoding is exact on all 2^32 words: which words are which command, by match and mask, and which words are illegal
for which of R104's two reasons (R103, R104, R105). -/
def Obligations.DecodeIsExact : Prop :=
  ∀ w : Word,
    (decode w = .ok .nop ↔ w &&& 0xFFFFFFFF#32 = 0x00000000#32) ∧
    (∀ a b : Byte, decode w = .ok (.mul a b) ↔
      w &&& 0xFF0000FF#32 = 0x00000001#32 ∧ a = w.extractLsb' 8 8 ∧ b = w.extractLsb' 16 8) ∧
    (decode w = .ok .mac ↔ w &&& 0xFFFFFFFF#32 = 0x00000002#32) ∧
    (∀ t : Byte, decode w = .ok (.verify t) ↔
      w &&& 0xFFFF00FF#32 = 0x00000003#32 ∧ t = w.extractLsb' 8 8) ∧
    (decode w = .ok .combine ↔ w &&& 0xFFFFFFFF#32 = 0x00000004#32) ∧
    (decode w = .ok .clry ↔ w &&& 0xFFFFFFFF#32 = 0x00000010#32) ∧
    (decode w = .ok .clrc ↔ w &&& 0xFFFFFFFF#32 = 0x00000011#32) ∧
    (decode w = .ok .clrkey ↔ w &&& 0xFFFFFFFF#32 = 0x00000012#32) ∧
    (decode w = .error .unassignedOpcode ↔
      w.extractLsb' 0 8 ∉ [0x00#8, 0x01#8, 0x02#8, 0x03#8, 0x04#8, 0x10#8, 0x11#8, 0x12#8]) ∧
    (decode w = .error .reservedBitsSet ↔
      w.extractLsb' 0 8 ∈ [0x00#8, 0x01#8, 0x02#8, 0x03#8, 0x04#8, 0x10#8, 0x11#8, 0x12#8] ∧
      ∀ i : Instr, decode w ≠ .ok i)

/-- At most one row of the opcode map matches any word (R103). -/
def Obligations.OpcodeRowsAreDisjoint : Prop :=
  opcodeMap.Pairwise (fun r r' => ∀ w : Word, ¬ (r.selects w = true ∧ r'.selects w = true))

/-- Words written out from R101 and R103, one of each command, and three illegal ones. -/
def Obligations.SampleWordsDecode : Prop :=
  decode 0b00000000000000000000000000000000#32 = .ok .nop ∧
  decode 0b00000000000000101000000000000001#32 = .ok (.mul 0x80#8 0x02#8) ∧
  decode 0b00000000000000000000000000000010#32 = .ok .mac ∧
  decode 0b00000000000000001101101100000011#32 = .ok (.verify 0xDB#8) ∧
  decode 0b00000000000000000000000000000100#32 = .ok .combine ∧
  decode 0b00000000000000000000000000010000#32 = .ok .clry ∧
  decode 0b00000000000000000000000000010001#32 = .ok .clrc ∧
  decode 0b00000000000000000000000000010010#32 = .ok .clrkey ∧
  decode 0b00000000000000000000000100000000#32 = .error .reservedBitsSet ∧
  decode 0b00000001000000101000000000000001#32 = .error .reservedBitsSet ∧
  decode 0b00000000000000000000000000000101#32 = .error .unassignedOpcode

/-- The forms of the assembler and their words; an operand above 255 has no encoding (R106). -/
def Obligations.AssemblerForms : Prop :=
  (assemble ⟨.nop, []⟩).map encode = some 0x00000000#32 ∧
  (∀ a b : Nat, a < 256 → b < 256 →
    ((assemble ⟨.mul, [a, b]⟩).map encode).map BitVec.toNat = some (b * 65536 + a * 256 + 0x01)) ∧
  (assemble ⟨.mac, []⟩).map encode = some 0x00000002#32 ∧
  (∀ t : Nat, t < 256 → ((assemble ⟨.verify, [t]⟩).map encode).map BitVec.toNat = some (t * 256 + 0x03)) ∧
  (assemble ⟨.combine, []⟩).map encode = some 0x00000004#32 ∧
  (assemble ⟨.clry, []⟩).map encode = some 0x00000010#32 ∧
  (assemble ⟨.clrc, []⟩).map encode = some 0x00000011#32 ∧
  (assemble ⟨.clrkey, []⟩).map encode = some 0x00000012#32 ∧
  (∀ a b : Nat, 255 < a ∨ 255 < b → assemble ⟨.mul, [a, b]⟩ = none) ∧
  (∀ t : Nat, 255 < t → assemble ⟨.verify, [t]⟩ = none)

/-! ## The command lifecycle -/

/-- A write of CMD while BUSY = 0 accepts the word, in one step and with no other effect (R44). -/
def Obligations.CommandAcceptance : Prop :=
  ∀ (s : State) (w : Word), s.phase = .idle →
    s.regWrite 0x08 w =
      { s with
        cmdl := w, ra := s.ready, phase := .busy, done := false, rvalid := false, err := .noError, result := 0#8 }

/-- The engine's step with a legal command in flight is the completion of that command (R44, R48). Whose step comes
next is the model's own field (notes/assumptions/1.md). Reset is not asserted: under reset no command is in flight. -/
def Obligations.StepRunsDecodedCommand : Prop :=
  ∀ (s : State) (i : Instr), s.resetIn = false → s.phase = .busy → s.nextTurn = .engine → decode s.cmdl = .ok i →
    step s = exec i { s with turns := s.turns.tail }

/-- `withFetchWord` places a command so that the very next step completes it (R44). The placement is the model's own
stand-in for the host's write (notes/assumptions/2.md). -/
def Obligations.PlacedWordRunsNext : Prop :=
  ∀ (s : State) (w : Nat) (i : Instr), w < 2 ^ 32 → decode (BitVec.ofNat 32 w) = .ok i →
    step (s.withFetchWord 32 w) =
      exec i
        { s with
          resetIn := false, cmdl := BitVec.ofNat 32 w, ra := s.ready, phase := .busy, done := false, rvalid := false,
          err := .noError, result := 0#8 }

/-- An illegal word completes with ILLEGAL_COMMAND and no other effect (R104, R230). -/
def Obligations.IllegalWordCompletes : Prop :=
  ∀ (s : State) (e : DecodeError), s.resetIn = false → s.phase = .busy → s.nextTurn = .engine → decode s.cmdl = .error e →
    step s =
      .next
        { s with
          turns := s.turns.tail, result := 0#8, rvalid := false, err := .illegalCommand, phase := .idle, done := true }

/-- Every command completes in one engine step, from every state, either with a valid result and no error or with an
error and no result (R45, R46, R84). -/
def Obligations.EveryCommandCompletes : Prop :=
  ∀ (i : Instr) (s : State), ∃ t : State,
    exec i s = .next t ∧ t.phase = .idle ∧ t.done = true ∧
    ((t.rvalid = true ∧ t.err = .noError) ∨ (t.rvalid = false ∧ t.err ≠ .noError ∧ t.result = 0#8))

/-- Which commands can raise which codes, by the opcode of the accepted word (R232); `noError` is code 0. -/
def Obligations.CommandErrorCodes : Prop :=
  ∀ s t : State, s.resetIn = false → s.phase = .busy → s.nextTurn = .engine → step s = .next t →
    let o := s.cmdl.extractLsb' 0 8
    (o ∈ [0x00#8, 0x10#8, 0x11#8, 0x12#8] → t.err ∈ [ErrCode.noError, .illegalCommand]) ∧
    (o = 0x01#8 → t.err ∈ [ErrCode.noError, .illegalCommand, .notReady]) ∧
    (o ∈ [0x02#8, 0x03#8] →
      t.err ∈ [ErrCode.noError, .illegalCommand, .notReady, .invalidKeyLength, .invalidIdentifier, .invalidParameter,
        .capacityExceeded, .vectorLengthMismatch, .cryptoFailure]) ∧
    (o = 0x04#8 →
      t.err ∈ [ErrCode.noError, .illegalCommand, .notReady, .capacityExceeded, .vectorLengthMismatch]) ∧
    ((∀ i : Instr, decode s.cmdl ≠ .ok i) → t.err = .illegalCommand)

/-- An error completion, of any word, changes only STATUS fields and RESULT in the block; outside it only the turn is
taken and the supplier's side moves (R46, R235). -/
def Obligations.ErrorChangesNothingElse : Prop :=
  ∀ s t : State, s.phase = .busy → s.nextTurn = .engine → step s = .next t → t.err ≠ .noError →
    t =
      { s with
        result := 0#8, rvalid := false, err := t.err, phase := .idle, done := true, turns := s.turns.tail,
        requests := t.requests, draws := t.draws, drawn := t.drawn }

/-- The frame of every command: what it leaves unchanged, with the exceptions named (R45, R52, R160, R211 to R213). -/
def Obligations.CommandFrame : Prop :=
  ∀ (i : Instr) (s t : State), exec i s = .next t →
    t.params = s.params ∧ t.resetIn = s.resetIn ∧ t.ready = s.ready ∧ t.lost = s.lost ∧ t.ie = s.ie ∧
    t.idr = s.idr ∧ t.n = s.n ∧ t.m = s.m ∧ t.iv0 = s.iv0 ∧ t.iv1 = s.iv1 ∧ t.iv2 = s.iv2 ∧ t.iv3 = s.iv3 ∧ t.cmdl = s.cmdl ∧ t.ra = s.ra ∧
    t.lutWritten = s.lutWritten ∧ t.program = s.program ∧ t.reads = s.reads ∧ t.turns = s.turns ∧
    t.cipher = s.cipher ∧
    (i ≠ .clrkey → t.k1 = s.k1 ∧ t.k2 = s.k2) ∧
    (i ≠ .clry → t.ybuf = s.ybuf) ∧
    (i ≠ .clrc → t.tbuf = s.tbuf ∧ t.abuf = s.abuf) ∧
    ((i ≠ .mac ∧ ∀ c, i ≠ .verify c) → t.requests = s.requests ∧ t.draws = s.draws ∧ t.drawn = s.drawn)

/-! ## The field and the product table -/

/-- The laws of gmul (R135). -/
def Obligations.GmulFieldLaws : Prop :=
  (∀ a b : Byte, gmul a b = gmul b a) ∧
  (∀ a : Byte, gmul a 1#8 = a) ∧
  (∀ a : Byte, gmul a 0#8 = 0#8) ∧
  (∀ a b c : Byte, gmul (gmul a b) c = gmul a (gmul b c)) ∧
  (∀ a b c : Byte, gmul a (b ^^^ c) = gmul a b ^^^ gmul a c) ∧
  (∀ a b : Byte, a ≠ 0#8 → b ≠ 0#8 → gmul a b ≠ 0#8) ∧
  (∀ a : Byte, a ≠ 0#8 → ∃ b : Byte, gmul a b = 1#8 ∧ ∀ c : Byte, gmul a c = 1#8 → c = b)

/-- gmul computes the product modulo x^8+x^4+x^3+x+1 (R130): the carry-less product of a and b differs from gmul(a, b)
by a multiple of the polynomial 0x11B. -/
def Obligations.GmulIsProductModuloPolynomial : Prop :=
  ∀ a b : Byte, ∃ q : Byte,
    (List.range 8).foldl
        (fun acc i => if b.getLsbD i then acc ^^^ (a.setWidth 16 <<< i) else acc) 0#16 =
      (gmul a b).setWidth 16 ^^^
        (List.range 8).foldl (fun acc i => if q.getLsbD i then acc ^^^ (0x11B#16 <<< i) else acc) 0#16

/-- Once READY = 1 every table entry is the product, and no step but the assertion of reset changes that (R132). -/
def Obligations.TableIsGmulOnceReady : Prop :=
  ∀ s : State, s.Inv → s.ready = true →
    (∀ a b : Byte, s.lutRead a b = gmul a b) ∧
    (∀ t : State, step s = .next t → s.nextTurn ≠ .assertReset →
      t.ready = true ∧ ∀ a b : Byte, t.lutRead a b = gmul a b)

/-- The initialiser's step: it writes its next entries, and READY rises exactly when the table is complete (R133); while
reset is asserted it has not started (R260). How many entries one turn writes is the model's own field
(notes/assumptions/3.md). -/
def Obligations.InitialiserBuildsTable : Prop :=
  ∀ (s : State) (k : Nat), s.Inv → s.nextTurn = .initialiser k →
    (s.resetIn = false →
      ∃ t : State, step s = .next t ∧
        t.lutWritten = min 65536 (s.lutWritten + k) ∧ (t.ready = true ↔ 65536 ≤ s.lutWritten + k) ∧
        t = { s with turns := s.turns.tail, lutWritten := t.lutWritten, ready := t.ready }) ∧
    (s.resetIn = true → step s = .next { s with turns := s.turns.tail })

/-- Only the table initialiser and reset change READY or the table (R49, R133). -/
def Obligations.OnlyInitialiserChangesTable : Prop :=
  ∀ s t : State, step s = .next t → t.ready ≠ s.ready ∨ t.lutWritten ≠ s.lutWritten →
    (∃ k, s.nextTurn = .initialiser k) ∨ s.underReset = true

/-- MUL yields the product and changes nothing else (R136). -/
def Obligations.MulCompletes : Prop :=
  ∀ (s : State) (a b : Byte), s.Inv → s.ra = true →
    exec (.mul a b) s =
      .next { s with result := gmul a b, rvalid := true, err := .noError, phase := .idle, done := true }

/-! ## The keystream -/

/-- Byte i of the PRG plaintext of L bytes is i mod 256 (R151); the PRF plaintext is two little-endian bytes of the
identifier and two of the index, its second byte 0 for a legal identifier, and every index below M fits (R152). -/
def Obligations.KeystreamPlaintexts : Prop :=
  (∀ len : Nat, (prgPt len).length = len ∧ ∀ i : Nat, i < len → (prgPt len)[i]? = some (BitVec.ofNat 8 (i % 256))) ∧
  (∀ id j : Half,
    prfPt id j = [id.extractLsb' 0 8, id.extractLsb' 8 8, j.extractLsb' 0 8, j.extractLsb' 8 8] ∧
    (id.toNat ≤ 100 → (prfPt id j)[1]? = some 0x00#8)) ∧
  (∀ (m : Half) (j : Nat), j < m.toNat → (BitVec.ofNat 16 j).toNat = j)

/-- IV byte k is in IV(k div 4), little-endian within the word (R39), and the four register writes of
`setiv b0, ..., b15` make the IV b0, ..., b15 and change nothing else (R108). -/
def Obligations.IvByteOrder : Prop :=
  (∀ s : State,
    s.ivBytes.length = 16 ∧
    ∀ k : Nat, k < 4 →
      s.ivBytes[k]? = some (s.iv0.extractLsb' (8 * k) 8) ∧
      s.ivBytes[4 + k]? = some (s.iv1.extractLsb' (8 * k) 8) ∧
      s.ivBytes[8 + k]? = some (s.iv2.extractLsb' (8 * k) 8) ∧
      s.ivBytes[12 + k]? = some (s.iv3.extractLsb' (8 * k) 8)) ∧
  (∀ (s : State) (iv : Vector Byte 16), s.phase = .idle →
    let t :=
      (((s.regWrite 0x18 (packWord iv[0] iv[1] iv[2] iv[3])).regWrite 0x1C (packWord iv[4] iv[5] iv[6] iv[7])).regWrite
        0x20 (packWord iv[8] iv[9] iv[10] iv[11])).regWrite 0x24 (packWord iv[12] iv[13] iv[14] iv[15])
    t.ivBytes = iv.toList ∧ t = { s with iv0 := t.iv0, iv1 := t.iv1, iv2 := t.iv2, iv3 := t.iv3 })

/-! ## MAC and VERIFY -/

/-- MAC yields the tag and changes nothing else, when its operands pass the checks and every request is answered Ok
(R170, R172); it issues the PRG request, then the M PRF requests in ascending order (R158, R161). -/
def Obligations.MacCompletes : Prop :=
  ∀ s : State, s.Inv → s.ra = true → s.TagInputsOk → (∀ k : Nat, k ≤ s.m.toNat → s.draw k = false) →
    exec .mac s =
      .next
        { s with
          result := s.tagOf, rvalid := true, err := .noError, phase := .idle, done := true,
          requests := s.requests ++ s.tagRequests,
          draws := s.draws.drop (s.m.toNat + 1), drawn := s.drawn + (s.m.toNat + 1 - s.draws.length) }

/-- VERIFY yields 1 when the claimed tag is the tag and 0 when it is not, and changes nothing else, under MAC's
conditions and with MAC's requests (R200). -/
def Obligations.VerifyCompletes : Prop :=
  ∀ (s : State) (c : Byte), s.Inv → s.ra = true → s.TagInputsOk → (∀ k : Nat, k ≤ s.m.toNat → s.draw k = false) →
    exec (.verify c) s =
      .next
        { s with
          result := if s.tagOf = c then 1#8 else 0#8, rvalid := true, err := .noError, phase := .idle, done := true,
          requests := s.requests ++ s.tagRequests,
          draws := s.draws.drop (s.m.toNat + 1), drawn := s.drawn + (s.m.toNat + 1 - s.draws.length) }

/-- At the first Fail MAC and VERIFY issue no further request and complete with CRYPTO_FAILURE (R158, R159). Here `k` counts
every request answered Ok, the PRG's included, so `k + 1` requests are issued, of which `k` are PRF requests: R161's count
as the model reads it after R158, R159 and V70 (notes/assumptions/21.md). -/
def Obligations.FirstFailEndsTheCommand : Prop :=
  ∀ (s : State) (c : Byte) (k : Nat), s.ra = true → s.TagInputsOk → k ≤ s.m.toNat →
    (∀ j : Nat, j < k → s.draw j = false) → s.draw k = true →
    let t :=
      { s with
        result := 0#8, rvalid := false, err := .cryptoFailure, phase := .idle, done := true,
        requests := s.requests ++ s.tagRequests.take (k + 1),
        draws := s.draws.drop (k + 1), drawn := s.drawn + (k + 1 - s.draws.length) }
    exec .mac s = .next t ∧ exec (.verify c) s = .next t ∧
    (t.requests.drop s.requests.length).length = k + 1 ∧
    (t.requests.drop s.requests.length).countP (fun q => decide (q.kind = .prf)) = k

/-- The checks MAC and VERIFY share, before any keystream request: the first error that applies, in the order of R171
(readiness before them, R233). -/
def Obligations.TagInputChecks : Prop :=
  ∀ (s : State) (c : Byte) (i : Instr), i = .mac ∨ i = .verify c →
    let bad := fun e : ErrCode =>
      exec i s = .next { s with result := 0#8, rvalid := false, err := e, phase := .idle, done := true }
    let keyBad := (s.k1.ovf = true ∨ s.k1.cnt ≠ 16) ∨ (s.k2.ovf = true ∨ s.k2.cnt ≠ 16)
    let idBad := s.idr.toNat < 1 ∨ 100 < s.idr.toNat
    let nmBad := s.n.toNat = 0 ∨ s.m.toNat = 0
    let tooLong := s.params.vmax < s.n.toNat + s.m.toNat
    let lenBad := s.ybuf.ovf = true ∨ s.ybuf.elems.length ≠ s.n.toNat + s.m.toNat
    (s.ra = false → bad .notReady) ∧
    (s.ra = true → keyBad → bad .invalidKeyLength) ∧
    (s.ra = true → ¬ keyBad → idBad → bad .invalidIdentifier) ∧
    (s.ra = true → ¬ keyBad → ¬ idBad → nmBad → bad .invalidParameter) ∧
    (s.ra = true → ¬ keyBad → ¬ idBad → ¬ nmBad → tooLong → bad .capacityExceeded) ∧
    (s.ra = true → ¬ keyBad → ¬ idBad → ¬ nmBad → ¬ tooLong → lenBad → bad .vectorLengthMismatch)

/-- For fixed operand state every successful MAC yields the same tag, whatever else the two states hold (R173). -/
def Obligations.MacIsDeterministic : Prop :=
  ∀ s s' t t' : State, s.Inv → s'.Inv → s.SameContext s' → s.ybuf = s'.ybuf →
    exec .mac s = .next t → exec .mac s' = .next t' → t.rvalid = true → t'.rvalid = true → t.result = t'.result

/-- For fixed r and f the fold is linear in y over GF(2^8) (R174). -/
def Obligations.FoldIsLinear : Prop :=
  ∀ (a b : Byte) (r f y1 y2 : List Byte) (n m : Nat),
    r.length = n + m → f.length = m → y1.length = n + m → y2.length = n + m →
    tagfold gmul r f (List.zipWith (fun u v => gmul a u ^^^ gmul b v) y1 y2) n =
      gmul a (tagfold gmul r f y1 n) ^^^ gmul b (tagfold gmul r f y2 n)

/-- The tag by weights: r[i] for a payload coordinate, r[N+j] ^ f[j] for a coefficient coordinate (R175). -/
def Obligations.FoldByWeights : Prop :=
  ∀ (r f y : List Byte) (n m : Nat), r.length = n + m → f.length = m → y.length = n + m →
    tagfold gmul r f y n =
      xorOver n (fun i => gmul (r.getD i 0#8) (y.getD i 0#8)) ^^^
        xorOver m (fun j => gmul (r.getD (n + j) 0#8 ^^^ f.getD j 0#8) (y.getD (n + j) 0#8))

/-- Two vectors that differ only in coordinate k, by d: their tags differ by gmul(w_k, d), so exactly when w_k is not
0 (R176). -/
def Obligations.FoldDetectsMutation : Prop :=
  ∀ (r f y y' : List Byte) (n m k : Nat),
    r.length = n + m → f.length = m → y.length = n + m → y'.length = n + m → k < n + m →
    (∀ i : Nat, i ≠ k → y.getD i 0#8 = y'.getD i 0#8) → y.getD k 0#8 ≠ y'.getD k 0#8 →
    let d := y.getD k 0#8 ^^^ y'.getD k 0#8
    let w := if k < n then r.getD k 0#8 else r.getD k 0#8 ^^^ f.getD (k - n) 0#8
    tagfold gmul r f y n ^^^ tagfold gmul r f y' n = gmul w d ∧
    (tagfold gmul r f y n ≠ tagfold gmul r f y' n ↔ w ≠ 0#8)

/-- VERIFY of MAC's tag matches, of any other tag does not, and of MAC's tag after a change of coordinate k does not
match exactly when the weight of k is not 0 (R203). -/
def Obligations.VerifyAgreesWithMac : Prop :=
  ∀ s s' t t' : State, ∀ c : Byte, s.Inv → s'.Inv → s.SameContext s' →
    exec .mac s = .next t → t.rvalid = true → exec (.verify c) s' = .next t' → t'.rvalid = true →
    (s.ybuf = s'.ybuf → t'.result = if c = t.result then 1#8 else 0#8) ∧
    (∀ k : Nat, k < s.n.toNat + s.m.toNat → (∀ i : Nat, i ≠ k → s.yAt i = s'.yAt i) → s.yAt k ≠ s'.yAt k →
      c = t.result → (t'.result = 0#8 ↔ s.weightAt k ≠ 0#8))

/-- An error of VERIFY and a mismatch are always distinguishable (R202): a recomputed tag other than the claimed one ends
with ERR = 0, RVALID = 1 and RESULT = 0, an equal one with RESULT = 1, and a run in which readiness, a check or a request
fails ends with ERR not 0 and RVALID = 0. -/
def Obligations.VerifyErrorIsNotMismatch : Prop :=
  ∀ (s : State) (c : Byte),
    (s.Inv → s.ra = true → s.TagInputsOk → (∀ k : Nat, k ≤ s.m.toNat → s.draw k = false) →
      ∃ t : State, exec (.verify c) s = .next t ∧ t.err = .noError ∧ t.rvalid = true ∧
        (s.tagOf ≠ c → t.result = 0#8) ∧ (s.tagOf = c → t.result = 1#8)) ∧
    (s.ra = false ∨ ¬ s.TagInputsOk ∨ (∃ k : Nat, k ≤ s.m.toNat ∧ s.draw k = true) →
      ∃ t : State, exec (.verify c) s = .next t ∧ t.err ≠ .noError ∧ t.rvalid = false ∧ t.result = 0#8)

/-- VERIFY exposes only MATCH: two states a host cannot tell apart by reading give, when both runs end with the same
error code and the same MATCH bit, states it cannot tell apart, whatever the keys, the vectors and the recomputed tags
are; and RESULT holds no more than that bit (R201). -/
def Obligations.VerifyExposesOnlyMatch : Prop :=
  ∀ (s s' t t' : State) (c : Byte), s.ReadsAlike s' →
    exec (.verify c) s = .next t → exec (.verify c) s' = .next t' → t.err = t'.err →
    t.result.getLsbD 0 = t'.result.getLsbD 0 →
    t.ReadsAlike t' ∧ (t.result = 0#8 ∨ t.result = 1#8)

/-! ## COMBINE -/

/-- COMBINE yields the linear combination of the tags and changes nothing else; both buffers empty gives 0 (R190). -/
def Obligations.CombineCompletes : Prop :=
  ∀ s : State, s.Inv → s.ra = true → s.tbuf.ovf = false → s.abuf.ovf = false →
    s.tbuf.elems.length = s.abuf.elems.length →
    exec .combine s =
      .next
        { s with
          result := xorOver s.tbuf.elems.length (fun i => gmul (s.abuf.elems.getD i 0#8) (s.tbuf.elems.getD i 0#8)),
          rvalid := true, err := .noError, phase := .idle, done := true }

/-- The errors of COMBINE, in the order of R190; nothing else changes (R233, R235). -/
def Obligations.CombineChecks : Prop :=
  ∀ s : State,
    let bad := fun e : ErrCode =>
      exec .combine s = .next { s with result := 0#8, rvalid := false, err := e, phase := .idle, done := true }
    (s.ra = false → bad .notReady) ∧
    (s.ra = true → s.tbuf.ovf = true ∨ s.abuf.ovf = true → bad .capacityExceeded) ∧
    (s.ra = true → s.tbuf.ovf = false → s.abuf.ovf = false → s.tbuf.elems.length ≠ s.abuf.elems.length →
      bad .vectorLengthMismatch)

/-- COMBINE of one tag under the coefficient 1 gives the tag (R192). -/
def Obligations.CombineIdentity : Prop :=
  ∀ (s : State) (tag : Byte), s.Inv → s.ra = true → s.tbuf = ⟨[tag], false⟩ → s.abuf = ⟨[1#8], false⟩ →
    ∃ t : State, exec .combine s = .next t ∧ t.rvalid = true ∧ t.err = .noError ∧ t.result = tag

/-- COMBINE depends on no key, identifier, N, M, IV or supplier: states with the same two buffers give the same result
and the same status (R193). -/
def Obligations.CombineNeedsNoKey : Prop :=
  ∀ s s' t t' : State, s.Inv → s'.Inv → s.ra = s'.ra → s.tbuf = s'.tbuf → s.abuf = s'.abuf →
    exec .combine s = .next t → exec .combine s' = .next t' →
    t.result = t'.result ∧ t.err = t'.err ∧ t.rvalid = t'.rvalid

/-- The homomorphism law (R191): COMBINE of the tags of successful MACs made in one context gives the tag a successful
MAC in that context gives for the combined vector. -/
def Obligations.CombineHomomorphism : Prop :=
  ∀ (runs : List TagRun) (z tz c : State),
    (∀ run ∈ runs, run.Ok z) →
    z.Inv → exec .mac z = .next tz → tz.rvalid = true →
    (∀ k : Nat, k < z.n.toNat + z.m.toNat →
      z.yAt k = xorSum (runs.map (fun run => gmul run.alpha (run.before.yAt k)))) →
    c.Inv → c.ra = true →
    c.tbuf = ⟨runs.map (fun run => run.after.result), false⟩ → c.abuf = ⟨runs.map (fun run => run.alpha), false⟩ →
    ∃ tc : State, exec .combine c = .next tc ∧ tc.rvalid = true ∧ tc.result = tz.result

/-! ## Housekeeping -/

/-- NOP, CLRY, CLRC and CLRKEY complete with result 0, empty what they name and change nothing else, whatever the state
(R210, R211, R212, R213). -/
def Obligations.HousekeepingCompletes : Prop :=
  ∀ s : State,
    exec .nop s = .next { s with result := 0#8, rvalid := true, err := .noError, phase := .idle, done := true } ∧
    exec .clry s =
      .next
        { s with
          ybuf := ⟨[], false⟩, result := 0#8, rvalid := true, err := .noError, phase := .idle, done := true } ∧
    exec .clrc s =
      .next
        { s with
          tbuf := ⟨[], false⟩, abuf := ⟨[], false⟩, result := 0#8, rvalid := true, err := .noError, phase := .idle,
          done := true } ∧
    exec .clrkey s =
      .next
        { s with
          k1 := ⟨Vector.replicate 16 0#8, 0, false⟩, k2 := ⟨Vector.replicate 16 0#8, 0, false⟩, result := 0#8,
          rvalid := true, err := .noError, phase := .idle, done := true }

/-- The housekeeping commands complete normally whatever RA is; the four others raise NOT_READY when RA = 0, and
nothing else changes (R214). -/
def Obligations.ReadinessTest : Prop :=
  ∀ s : State,
    (∀ i ∈ [Instr.nop, .clry, .clrc, .clrkey], ∃ t : State, exec i s = .next t ∧ t.err = .noError ∧ t.rvalid = true) ∧
    (s.ra = false → ∀ a b c : Byte, ∀ i ∈ [Instr.mul a b, .mac, .verify c, .combine],
      exec i s = .next { s with result := 0#8, rvalid := false, err := .notReady, phase := .idle, done := true })

/-! ## The register window -/

/-- A write of a guarded register while BUSY = 1 has no effect but LOST; STATUS and CTRL take a write whatever BUSY is,
STATUS clearing DONE and LOST where bits 2 and 4 are 1 (R79), CTRL setting IE to v[0] (R80); read-only and reserved
offsets ignore it and never set LOST (R47). -/
def Obligations.GuardedWriteDroppedWhileBusy : Prop :=
  ∀ (s : State) (v : Word),
    (s.phase = .busy → ∀ off ∈ [0x08, 0x10, 0x14, 0x18, 0x1C, 0x20, 0x24, 0x28, 0x2C, 0x34, 0x3C, 0x40],
      s.regWrite off v = { s with lost := true }) ∧
    s.regWrite 0x00 v =
      { s with
        done := if v.getLsbD 2 = true then false else s.done, lost := if v.getLsbD 4 = true then false else s.lost } ∧
    s.regWrite 0x04 v = { s with ie := v.getLsbD 0 } ∧
    (∀ off ∈ [0x0C, 0x30, 0x38, 0x44, 0x48, 0x4C, 0x50], s.regWrite off v = s) ∧
    (∀ off : Nat, 0x54 ≤ off → off ≤ 0xFC → off % 4 = 0 → s.regWrite off v = s)

/-- Writes of IDR, NM and the IV registers while BUSY = 0, and what they then read (R37, R38, R39, R81). -/
def Obligations.OperandRegisterWrites : Prop :=
  ∀ (s : State) (v : Word), s.phase = .idle →
    s.regWrite 0x10 v = { s with idr := v.extractLsb' 0 16 } ∧
    s.regWrite 0x14 v = { s with n := v.extractLsb' 0 16, m := v.extractLsb' 16 16 } ∧
    s.regWrite 0x18 v = { s with iv0 := v } ∧ s.regWrite 0x1C v = { s with iv1 := v } ∧
    s.regWrite 0x20 v = { s with iv2 := v } ∧ s.regWrite 0x24 v = { s with iv3 := v } ∧
    (s.regWrite 0x10 v).regRead 0x10 = v &&& 0x0000FFFF#32 ∧
    ∀ off ∈ [0x14, 0x18, 0x1C, 0x20, 0x24], (s.regWrite off v).regRead off = v

/-- A key push while BUSY = 0: the byte v[7:0] goes to index CNT and CNT counts up, or OVF is set when 16 bytes are
there; the same of both ports (R76). -/
def Obligations.KeyPush : Prop :=
  ∀ (s : State) (v : Word), s.phase = .idle →
    (∀ h : s.k1.cnt < 16,
      s.regWrite 0x28 v = { s with k1 := ⟨s.k1.bytes.set s.k1.cnt (v.extractLsb' 0 8) h, s.k1.cnt + 1, s.k1.ovf⟩ }) ∧
    (16 ≤ s.k1.cnt → s.regWrite 0x28 v = { s with k1 := ⟨s.k1.bytes, s.k1.cnt, true⟩ }) ∧
    (∀ h : s.k2.cnt < 16,
      s.regWrite 0x2C v = { s with k2 := ⟨s.k2.bytes.set s.k2.cnt (v.extractLsb' 0 8) h, s.k2.cnt + 1, s.k2.ovf⟩ }) ∧
    (16 ≤ s.k2.cnt → s.regWrite 0x2C v = { s with k2 := ⟨s.k2.bytes, s.k2.cnt, true⟩ })

/-- Sixteen pushes into an erased key store load the key, key byte 0 being the first pushed, and make it valid; the same
of both stores and their ports (R40, R76). -/
def Obligations.SixteenPushesLoadTheKey : Prop :=
  ∀ (s : State) (key : Vector Byte 16), s.phase = .idle →
    (s.k1 = ⟨Vector.replicate 16 0#8, 0, false⟩ →
      key.toList.foldl (fun t b => t.regWrite 0x28 (b.setWidth 32)) s = { s with k1 := ⟨key, 16, false⟩ }) ∧
    (s.k2 = ⟨Vector.replicate 16 0#8, 0, false⟩ →
      key.toList.foldl (fun t b => t.regWrite 0x2C (b.setWidth 32)) s = { s with k2 := ⟨key, 16, false⟩ })

/-- An overflowed key stays invalid until CLRKEY or reset: no other step clears the flag (R76). -/
def Obligations.KeyOverflowIsSticky : Prop :=
  ∀ s t : State, step s = .next t →
    (s.k1.ovf = true ∧ t.k1.ovf = false) ∨ (s.k2.ovf = true ∧ t.k2.ovf = false) →
    s.underReset = true ∨ (s.nextTurn = .engine ∧ s.phase = .busy ∧ decode s.cmdl = .ok .clrkey)

/-- A vector push while BUSY = 0 appends v[7:0], or sets OVF when VMAX elements are there (R77); a tag or coefficient
push the same with CMAX (R78). -/
def Obligations.BufferPushes : Prop :=
  ∀ (s : State) (v : Word), s.phase = .idle →
    (s.ybuf.elems.length < s.params.vmax →
      s.regWrite 0x34 v = { s with ybuf := ⟨s.ybuf.elems ++ [v.extractLsb' 0 8], s.ybuf.ovf⟩ }) ∧
    (s.params.vmax ≤ s.ybuf.elems.length → s.regWrite 0x34 v = { s with ybuf := ⟨s.ybuf.elems, true⟩ }) ∧
    (s.tbuf.elems.length < s.params.cmax →
      s.regWrite 0x3C v = { s with tbuf := ⟨s.tbuf.elems ++ [v.extractLsb' 0 8], s.tbuf.ovf⟩ }) ∧
    (s.params.cmax ≤ s.tbuf.elems.length → s.regWrite 0x3C v = { s with tbuf := ⟨s.tbuf.elems, true⟩ }) ∧
    (s.abuf.elems.length < s.params.cmax →
      s.regWrite 0x40 v = { s with abuf := ⟨s.abuf.elems ++ [v.extractLsb' 0 8], s.abuf.ovf⟩ }) ∧
    (s.params.cmax ≤ s.abuf.elems.length → s.regWrite 0x40 v = { s with abuf := ⟨s.abuf.elems, true⟩ })

/-- The fields of STATUS as it reads, with the reserved bits 0 (R33, R48), and the nine values of the ERR field (R231). -/
def Obligations.StatusFieldLayout : Prop :=
  ∀ s : State,
    let w := s.regRead 0x00
    w.getLsbD 0 = s.ready ∧ (w.getLsbD 1 = true ↔ s.phase = .busy) ∧ w.getLsbD 2 = s.done ∧ w.getLsbD 3 = s.rvalid ∧
    w.getLsbD 4 = s.lost ∧ w.extractLsb' 5 3 = 0#3 ∧ w.extractLsb' 8 4 = s.err.code ∧ w.extractLsb' 12 20 = 0#20 ∧
    (s.err = .noError → w.extractLsb' 8 4 = 0#4) ∧
    (s.err = .invalidKeyLength → w.extractLsb' 8 4 = 1#4) ∧
    (s.err = .invalidIdentifier → w.extractLsb' 8 4 = 2#4) ∧
    (s.err = .vectorLengthMismatch → w.extractLsb' 8 4 = 3#4) ∧
    (s.err = .cryptoFailure → w.extractLsb' 8 4 = 4#4) ∧
    (s.err = .capacityExceeded → w.extractLsb' 8 4 = 5#4) ∧
    (s.err = .invalidParameter → w.extractLsb' 8 4 = 6#4) ∧
    (s.err = .illegalCommand → w.extractLsb' 8 4 = 7#4) ∧
    (s.err = .notReady → w.extractLsb' 8 4 = 8#4) ∧
    (w.extractLsb' 8 4).toNat ≤ 8

/-- The fields of KEYCNT, Y_LEN, T_LEN and A_LEN as they read, with the reserved bits 0 (R40, R41, R42). -/
def Obligations.CountFieldLayout : Prop :=
  ∀ s : State, s.Inv →
    let k := s.regRead 0x30
    (k.extractLsb' 0 5).toNat = s.k1.cnt ∧ k.extractLsb' 5 2 = 0#2 ∧ k.getLsbD 7 = s.k1.ovf ∧
    (k.extractLsb' 8 5).toNat = s.k2.cnt ∧ k.extractLsb' 13 2 = 0#2 ∧ k.getLsbD 15 = s.k2.ovf ∧
    k.extractLsb' 16 16 = 0#16 ∧
    ((s.regRead 0x38).extractLsb' 0 17).toNat = s.ybuf.elems.length ∧ (s.regRead 0x38).extractLsb' 17 14 = 0#14 ∧
    (s.regRead 0x38).getLsbD 31 = s.ybuf.ovf ∧
    ((s.regRead 0x44).extractLsb' 0 16).toNat = s.tbuf.elems.length ∧ (s.regRead 0x44).extractLsb' 16 15 = 0#15 ∧
    (s.regRead 0x44).getLsbD 31 = s.tbuf.ovf ∧
    ((s.regRead 0x48).extractLsb' 0 16).toNat = s.abuf.elems.length ∧ (s.regRead 0x48).extractLsb' 16 15 = 0#15 ∧
    (s.regRead 0x48).getLsbD 31 = s.abuf.ovf

/-- The other reads: the registers' values with reserved bits 0, VMAX and CMAX, and 0 for write-only registers and
reserved offsets (R34, R36, R37, R43, R71, R74). -/
def Obligations.RegisterReads : Prop :=
  ∀ s : State, s.Inv →
    s.regRead 0x04 = (if s.ie = true then 1#32 else 0#32) ∧ s.regRead 0x0C = s.result.setWidth 32 ∧
    s.regRead 0x10 = s.idr.setWidth 32 ∧
    (s.regRead 0x14).extractLsb' 0 16 = s.n ∧ (s.regRead 0x14).extractLsb' 16 16 = s.m ∧
    s.regRead 0x18 = s.iv0 ∧ s.regRead 0x1C = s.iv1 ∧ s.regRead 0x20 = s.iv2 ∧ s.regRead 0x24 = s.iv3 ∧
    (s.regRead 0x4C).toNat = s.params.vmax ∧ (s.regRead 0x50).toNat = s.params.cmax ∧
    (∀ off ∈ [0x08, 0x28, 0x2C, 0x34, 0x3C, 0x40], s.regRead off = 0#32) ∧
    (∀ off : Nat, 0x54 ≤ off → off ≤ 0xFC → off % 4 = 0 → s.regRead off = 0#32)

/-- No key byte, buffer element or table entry is readable: two states that agree on everything else read alike (R74,
R240). -/
def Obligations.SecretsAreNotReadable : Prop :=
  ∀ s t : State,
    s.params = t.params → s.ready = t.ready → s.phase = t.phase → s.done = t.done → s.rvalid = t.rvalid →
    s.lost = t.lost → s.err = t.err → s.ie = t.ie → s.result = t.result → s.idr = t.idr → s.n = t.n → s.m = t.m →
    s.iv0 = t.iv0 → s.iv1 = t.iv1 → s.iv2 = t.iv2 → s.iv3 = t.iv3 →
    s.k1.cnt = t.k1.cnt → s.k1.ovf = t.k1.ovf → s.k2.cnt = t.k2.cnt → s.k2.ovf = t.k2.ovf →
    s.ybuf.elems.length = t.ybuf.elems.length → s.ybuf.ovf = t.ybuf.ovf →
    s.tbuf.elems.length = t.tbuf.elems.length → s.tbuf.ovf = t.tbuf.ovf →
    s.abuf.elems.length = t.abuf.elems.length → s.abuf.ovf = t.abuf.ovf → s.ReadsAlike t

/-- The host's step: an aligned 32-bit access inside the window does exactly the register read or write, and a poll
stays until its condition holds (R74, R75, R82, R107). A read changes nothing of the block. While reset is asserted it reads
the reset values and writes nothing (R260; notes/assumptions/22.md). The program and the list of values read are the
model's own fields (notes/assumptions/15.md). -/
def Obligations.HostAccessStep : Prop :=
  ∀ (s : State) (off : Nat) (v mask : Word) (rest : List HostStmt),
    s.nextTurn = .host → off < 256 → (s.params.base + off) % 4 = 0 →
    let b := if s.resetIn = true then s.resetBlock else s
    (s.resetIn = false → s.program = .wr (s.params.base + off) 4 v :: rest →
      step s = .next ({ s with turns := s.turns.tail, program := rest }.regWrite off v)) ∧
    (s.resetIn = true → s.program = .wr (s.params.base + off) 4 v :: rest →
      step s = .next { s.resetBlock with turns := s.turns.tail, program := rest }) ∧
    (s.program = .rd (s.params.base + off) 4 :: rest →
      step s = .next { b with turns := s.turns.tail, program := rest, reads := s.reads ++ [b.regRead off] }) ∧
    (s.program = .poll (s.params.base + off) 4 mask v :: rest → b.regRead off &&& mask = v →
      step s = .next { b with turns := s.turns.tail, program := rest, reads := s.reads ++ [b.regRead off] }) ∧
    (s.program = .poll (s.params.base + off) 4 mask v :: rest → b.regRead off &&& mask ≠ v →
      step s = .next { b with turns := s.turns.tail, reads := s.reads ++ [b.regRead off] })

/-- An access in the window of another size or alignment is refused: neither performed nor given a value (R73). -/
def Obligations.UndefinedAccessRefused : Prop :=
  ∀ (s : State) (addr size : Nat) (v mask : Word) (rest : List HostStmt) (a : HostStmt),
    s.nextTurn = .host → s.params.base ≤ addr → addr < s.params.base + 256 → (size ≠ 4 ∨ addr % 4 ≠ 0) →
    a ∈ [HostStmt.wr addr size v, .rd addr size, .poll addr size mask v] → s.program = a :: rest →
    step s = .refused .undefinedAccess

/-- A host program that keeps to the defined accesses never stops the machine, and goes on keeping to them (R73, R230:
register accesses never fail; every command completes). The program is the model's own field
(notes/assumptions/15.md). -/
def Obligations.AdmittedProgramsAreSafe : Prop :=
  ∀ s : State, s.programAdmitted = true →
    (∃ t : State, step s = .next t ∧ t.programAdmitted = true) ∧ ∀ k : Nat, SafeFor k s

/-! ## Interrupt, reset and whole-machine rules -/

/-- IRQ = STATUS.DONE and CTRL.IE, as a host reads the two registers, and it is 0 after reset (R51). -/
def Obligations.IrqIsDoneAndEnabled : Prop :=
  (∀ s : State, s.irq = ((s.regRead 0x00).getLsbD 2 && (s.regRead 0x04).getLsbD 0)) ∧ State.reset.irq = false

/-- The interrupt's events (R238): IRQ = DONE and IE, every completion makes it pending, write-1-to-clear or the next
acceptance clears it, masking drops it and leaves DONE, and only a completion or a write of CTRL raises it. -/
def Obligations.IrqEvents : Prop :=
  (∀ s : State, s.irq = (s.done && s.ie)) ∧
  (∀ s t : State, s.resetIn = false → s.phase = .busy → s.nextTurn = .engine → step s = .next t →
    t.done = true ∧ t.irq = t.ie) ∧
  (∀ (s : State) (v : Word), v.getLsbD 2 = true →
    (s.regWrite 0x00 v).done = false ∧ (s.regWrite 0x00 v).irq = false) ∧
  (∀ (s : State) (w : Word), s.phase = .idle → (s.regWrite 0x08 w).done = false ∧ (s.regWrite 0x08 w).irq = false) ∧
  (∀ (s : State) (v : Word), v.getLsbD 0 = false →
    (s.regWrite 0x04 v).done = s.done ∧ (s.regWrite 0x04 v).irq = false) ∧
  (∀ s t : State, step s = .next t → s.irq = false → t.irq = true →
    (s.nextTurn = .engine ∧ s.phase = .busy) ∨
    (s.nextTurn = .host ∧ ∃ addr size v rest, s.program = .wr addr size v :: rest ∧ addr = s.params.base + 0x04))

/-- Reset takes every piece of the block's state to the value of R53, whatever the phase: at its assertion, at every step
while it is asserted, whoever moves, and at its release (R260, R261). The input stays asserted until the release. The
parameters and the agents outside are left alone (the model's choice, notes/assumptions/13.md); a host access moves the
host on. What a host then reads: 0 at every word slot but VMAX and CMAX, which read the parameters; IRQ is 0 (R53). -/
def Obligations.ResetTakesResetValues : Prop :=
  (∀ s : State, s.underReset = true → s.nextTurn ≠ .host →
    ∃ t : State, step s = .next t ∧ t.program = s.program ∧ t.reads = s.reads) ∧
  (∀ s t : State, s.underReset = true → step s = .next t →
      t =
        { params := s.params, resetIn := decide (s.nextTurn ≠ .releaseReset), ready := false, phase := .idle,
          done := false, rvalid := false, lost := false, err := .noError, ie := false, result := 0#8, idr := 0#16, n := 0#16, m := 0#16, iv0 := 0#32, iv1 := 0#32,
          iv2 := 0#32, iv3 := 0#32, k1 := ⟨Vector.replicate 16 0#8, 0, false⟩,
          k2 := ⟨Vector.replicate 16 0#8, 0, false⟩, ybuf := ⟨[], false⟩, tbuf := ⟨[], false⟩, abuf := ⟨[], false⟩,
          cmdl := 0#32, ra := false, lutWritten := 0, program := t.program, reads := t.reads, turns := s.turns.tail,
          requests := s.requests, cipher := s.cipher, draws := s.draws, drawn := s.drawn } ∧
      (∀ off : Nat, off ≤ 0xFC → off % 4 = 0 → off ≠ 0x4C → off ≠ 0x50 → t.regRead off = 0#32) ∧
      (s.params.wellFormed = true →
        (t.regRead 0x4C).toNat = t.params.vmax ∧ (t.regRead 0x50).toNat = t.params.cmax) ∧
      t.irq = false)

/-- While a command is in flight, only its completion or a reset ends it, and the host's steps change none of its
operands (R44, R47, R87, R261). -/
def Obligations.CommandInFlightIsUndisturbed : Prop :=
  ∀ s t : State, s.phase = .busy → step s = .next t →
    (t.phase = .idle → s.nextTurn = .engine ∨ s.underReset = true) ∧
    (s.resetIn = false → s.nextTurn = .host →
      t.phase = .busy ∧ t.cmdl = s.cmdl ∧ t.ra = s.ra ∧ t.result = s.result ∧ t.rvalid = s.rvalid ∧ t.err = s.err ∧
      t.idr = s.idr ∧ t.n = s.n ∧ t.m = s.m ∧ t.iv0 = s.iv0 ∧ t.iv1 = s.iv1 ∧ t.iv2 = s.iv2 ∧ t.iv3 = s.iv3 ∧
      t.k1 = s.k1 ∧ t.k2 = s.k2 ∧ t.ybuf = s.ybuf ∧ t.tbuf = s.tbuf ∧ t.abuf = s.abuf)

/-- LOST is set only by a host write of a guarded register while BUSY = 1, and cleared only by a host write of STATUS
with bit 4 set, or by reset (R33, R47, R237). -/
def Obligations.LostChangesOnlySo : Prop :=
  ∀ s t : State, step s = .next t →
    (s.lost = false → t.lost = true →
      s.nextTurn = .host ∧ s.phase = .busy ∧
      ∃ off ∈ [0x08, 0x10, 0x14, 0x18, 0x1C, 0x20, 0x24, 0x28, 0x2C, 0x34, 0x3C, 0x40],
        ∃ v rest, s.program = .wr (s.params.base + off) 4 v :: rest) ∧
    (s.lost = true → t.lost = false →
      s.underReset = true ∨
      (s.nextTurn = .host ∧ ∃ v rest, s.program = .wr s.params.base 4 v :: rest ∧ v.getLsbD 4 = true))

/-- The state right after power-on holds the reset values of R53, and the invariant holds there. -/
def Obligations.InvAtReset : Prop :=
  State.reset.Inv ∧ State.reset.resetBlock = State.reset

/-- Every step keeps the invariant, from every state that meets it: the counts stay within 16, VMAX and CMAX, an
overflow flag is set only on a full store, READY = 1 exactly when the table is complete, RA = 1 only while READY = 1,
a command in flight shows no completion, RESULT is 0 while RVALID is 0, and while reset is asserted the block holds its
reset values. -/
def Obligations.StepKeepsInv : Prop :=
  ∀ s t : State, s.Inv → step s = .next t → t.Inv
end

