-- ==== Sys2Proof/Laws/Fold.lean ====
section
/-! SUPPORT. The small lemmas of the folds over GF(2^8). -/

namespace Sys2Proof.Machine

@[simp] theorem xorSum_nil : xorSum [] = 0#8 := rfl

theorem foldl_xor_start (xs : List Byte) (t : Byte) : xs.foldl (· ^^^ ·) t = t ^^^ xs.foldl (· ^^^ ·) 0#8 := by
  induction xs generalizing t with
  | nil => simp
  | cons x xs ih =>
    simp only [List.foldl_cons]
    rw [ih (t ^^^ x), ih (0#8 ^^^ x), BitVec.zero_xor, BitVec.xor_assoc]

@[simp] theorem xorSum_cons (x : Byte) (xs : List Byte) : xorSum (x :: xs) = x ^^^ xorSum xs := by
  simp only [xorSum, List.foldl_cons]
  rw [foldl_xor_start xs (0#8 ^^^ x), BitVec.zero_xor]

@[simp] theorem xorSum_append (xs ys : List Byte) : xorSum (xs ++ ys) = xorSum xs ^^^ xorSum ys := by
  induction xs with
  | nil => simp
  | cons x xs ih => simp [ih, BitVec.xor_assoc]

theorem xorOver_eq_xorSum (k : Nat) (e : Nat → Byte) : xorOver k e = xorSum ((List.range k).map e) := by
  simp [xorOver, xorSum, List.foldl_map]

@[simp] theorem xorOver_zero (e : Nat → Byte) : xorOver 0 e = 0#8 := rfl

theorem xorOver_succ (k : Nat) (e : Nat → Byte) : xorOver (k + 1) e = xorOver k e ^^^ e k := by
  simp [xorOver_eq_xorSum, List.range_succ]

/-- The exclusive-or of two sums, term by term. -/
theorem xorOver_xor (k : Nat) (e g : Nat → Byte) :
    xorOver k (fun i => e i ^^^ g i) = xorOver k e ^^^ xorOver k g := by
  induction k with
  | zero => simp
  | succ k ih => simp only [xorOver_succ, ih]; ac_rfl

/-- A sum over the first a + b indexes splits. -/
theorem xorOver_add (a b : Nat) (e : Nat → Byte) :
    xorOver (a + b) e = xorOver a e ^^^ xorOver b (fun j => e (a + j)) := by
  induction b with
  | zero => simp
  | succ b ih => rw [← Nat.add_assoc, xorOver_succ, xorOver_succ, ih]; ac_rfl

theorem xorOver_congr {k : Nat} {e g : Nat → Byte} (h : ∀ i, i < k → e i = g i) : xorOver k e = xorOver k g := by
  induction k with
  | zero => rfl
  | succ k ih =>
    rw [xorOver_succ, xorOver_succ, ih (fun i hi => h i (by omega)), h k (by omega)]

/-- The list form of the fold, read by indexes. -/
theorem xorProducts_eq_xorOver (lut : Byte → Byte → Byte) (xs ys : List Byte) (h : xs.length = ys.length) :
    xorProducts lut xs ys = xorOver xs.length (fun i => lut (xs.getD i 0#8) (ys.getD i 0#8)) := by
  rw [xorProducts, xorOver_eq_xorSum]
  congr 1
  apply List.ext_getElem
  · simp [h]
  · intro i h1 h2
    have hx : i < xs.length := by simpa using h2
    have hy : i < ys.length := h ▸ hx
    simp [List.getD_eq_getElem?_getD, hx, hy]

/-- The tag fold, read by indexes as R172 writes it. -/
theorem tagfold_eq_xorOver (lut : Byte → Byte → Byte) (r f y : List Byte) (n m : Nat)
    (hr : r.length = n + m) (hf : f.length = m) (hy : y.length = n + m) :
    tagfold lut r f y n =
      xorOver (n + m) (fun i => lut (r.getD i 0#8) (y.getD i 0#8)) ^^^
        xorOver m (fun j => lut (y.getD (n + j) 0#8) (f.getD j 0#8)) := by
  rw [tagfold, xorProducts_eq_xorOver _ _ _ (hr.trans hy.symm), hr,
    xorProducts_eq_xorOver _ _ _ (by simp [hy, hf])]
  congr 1
  have : (y.drop n).length = m := by simp [hy]
  rw [this]
  apply xorOver_congr
  intro j hj
  simp [List.getD_eq_getElem?_getD]

/-- The accumulator of the peasant's algorithm only adds (R131). -/
theorem gmulRounds_acc (k : Nat) (x y a b : Byte) : gmulRounds k (x ^^^ y) a b = x ^^^ gmulRounds k y a b := by
  induction k generalizing x y a b with
  | zero => rfl
  | succ k ih =>
    simp only [gmulRounds]
    split
    · rw [BitVec.xor_assoc, ih]
    · rw [ih]

/-- A complete table reads as the product (R132). -/
theorem lutRead_complete (s : State) (h : lutSize ≤ s.lutWritten) (a b : Byte) : s.lutRead a b = gmul a b := by
  simp [State.lutRead, h]

/-- A state that meets the invariant and has READY = 1 reads the product everywhere (R132). -/
theorem lutRead_ready (s : State) (hi : s.Inv) (h : s.ready = true) : s.lutRead = gmul := by
  funext a b
  exact lutRead_complete s (le_of_eq (hi.ready_iff.mp h).symm) a b

end Sys2Proof.Machine
end

