-- ==== Sys2Proof/Laws/State.lean ====
section
/-! SUPPORT. One lemma per field of State per unconditional update of the machine, true by rfl. -/

namespace Sys2Proof.Machine

/-! ## accept -/

@[simp] theorem State.accept_params (w : Word) (s : State) : (s.accept w).params = s.params := rfl
@[simp] theorem State.accept_resetIn (w : Word) (s : State) : (s.accept w).resetIn = s.resetIn := rfl
@[simp] theorem State.accept_ready (w : Word) (s : State) : (s.accept w).ready = s.ready := rfl
@[simp] theorem State.accept_phase (w : Word) (s : State) : (s.accept w).phase = .busy := rfl
@[simp] theorem State.accept_done (w : Word) (s : State) : (s.accept w).done = false := rfl
@[simp] theorem State.accept_rvalid (w : Word) (s : State) : (s.accept w).rvalid = false := rfl
@[simp] theorem State.accept_lost (w : Word) (s : State) : (s.accept w).lost = s.lost := rfl
@[simp] theorem State.accept_err (w : Word) (s : State) : (s.accept w).err = .noError := rfl
@[simp] theorem State.accept_ie (w : Word) (s : State) : (s.accept w).ie = s.ie := rfl
@[simp] theorem State.accept_result (w : Word) (s : State) : (s.accept w).result = 0#8 := rfl
@[simp] theorem State.accept_idr (w : Word) (s : State) : (s.accept w).idr = s.idr := rfl
@[simp] theorem State.accept_n (w : Word) (s : State) : (s.accept w).n = s.n := rfl
@[simp] theorem State.accept_m (w : Word) (s : State) : (s.accept w).m = s.m := rfl
@[simp] theorem State.accept_iv0 (w : Word) (s : State) : (s.accept w).iv0 = s.iv0 := rfl
@[simp] theorem State.accept_iv1 (w : Word) (s : State) : (s.accept w).iv1 = s.iv1 := rfl
@[simp] theorem State.accept_iv2 (w : Word) (s : State) : (s.accept w).iv2 = s.iv2 := rfl
@[simp] theorem State.accept_iv3 (w : Word) (s : State) : (s.accept w).iv3 = s.iv3 := rfl
@[simp] theorem State.accept_k1 (w : Word) (s : State) : (s.accept w).k1 = s.k1 := rfl
@[simp] theorem State.accept_k2 (w : Word) (s : State) : (s.accept w).k2 = s.k2 := rfl
@[simp] theorem State.accept_ybuf (w : Word) (s : State) : (s.accept w).ybuf = s.ybuf := rfl
@[simp] theorem State.accept_tbuf (w : Word) (s : State) : (s.accept w).tbuf = s.tbuf := rfl
@[simp] theorem State.accept_abuf (w : Word) (s : State) : (s.accept w).abuf = s.abuf := rfl
@[simp] theorem State.accept_cmdl (w : Word) (s : State) : (s.accept w).cmdl = w := rfl
@[simp] theorem State.accept_ra (w : Word) (s : State) : (s.accept w).ra = s.ready := rfl
@[simp] theorem State.accept_lutWritten (w : Word) (s : State) : (s.accept w).lutWritten = s.lutWritten := rfl
@[simp] theorem State.accept_program (w : Word) (s : State) : (s.accept w).program = s.program := rfl
@[simp] theorem State.accept_reads (w : Word) (s : State) : (s.accept w).reads = s.reads := rfl
@[simp] theorem State.accept_turns (w : Word) (s : State) : (s.accept w).turns = s.turns := rfl
@[simp] theorem State.accept_requests (w : Word) (s : State) : (s.accept w).requests = s.requests := rfl
@[simp] theorem State.accept_cipher (w : Word) (s : State) : (s.accept w).cipher = s.cipher := rfl
@[simp] theorem State.accept_draws (w : Word) (s : State) : (s.accept w).draws = s.draws := rfl
@[simp] theorem State.accept_drawn (w : Word) (s : State) : (s.accept w).drawn = s.drawn := rfl

/-! ## finishOk -/

@[simp] theorem State.finishOk_params (v : Byte) (s : State) : (s.finishOk v).params = s.params := rfl
@[simp] theorem State.finishOk_resetIn (v : Byte) (s : State) : (s.finishOk v).resetIn = s.resetIn := rfl
@[simp] theorem State.finishOk_ready (v : Byte) (s : State) : (s.finishOk v).ready = s.ready := rfl
@[simp] theorem State.finishOk_phase (v : Byte) (s : State) : (s.finishOk v).phase = .idle := rfl
@[simp] theorem State.finishOk_done (v : Byte) (s : State) : (s.finishOk v).done = true := rfl
@[simp] theorem State.finishOk_rvalid (v : Byte) (s : State) : (s.finishOk v).rvalid = true := rfl
@[simp] theorem State.finishOk_lost (v : Byte) (s : State) : (s.finishOk v).lost = s.lost := rfl
@[simp] theorem State.finishOk_err (v : Byte) (s : State) : (s.finishOk v).err = .noError := rfl
@[simp] theorem State.finishOk_ie (v : Byte) (s : State) : (s.finishOk v).ie = s.ie := rfl
@[simp] theorem State.finishOk_result (v : Byte) (s : State) : (s.finishOk v).result = v := rfl
@[simp] theorem State.finishOk_idr (v : Byte) (s : State) : (s.finishOk v).idr = s.idr := rfl
@[simp] theorem State.finishOk_n (v : Byte) (s : State) : (s.finishOk v).n = s.n := rfl
@[simp] theorem State.finishOk_m (v : Byte) (s : State) : (s.finishOk v).m = s.m := rfl
@[simp] theorem State.finishOk_iv0 (v : Byte) (s : State) : (s.finishOk v).iv0 = s.iv0 := rfl
@[simp] theorem State.finishOk_iv1 (v : Byte) (s : State) : (s.finishOk v).iv1 = s.iv1 := rfl
@[simp] theorem State.finishOk_iv2 (v : Byte) (s : State) : (s.finishOk v).iv2 = s.iv2 := rfl
@[simp] theorem State.finishOk_iv3 (v : Byte) (s : State) : (s.finishOk v).iv3 = s.iv3 := rfl
@[simp] theorem State.finishOk_k1 (v : Byte) (s : State) : (s.finishOk v).k1 = s.k1 := rfl
@[simp] theorem State.finishOk_k2 (v : Byte) (s : State) : (s.finishOk v).k2 = s.k2 := rfl
@[simp] theorem State.finishOk_ybuf (v : Byte) (s : State) : (s.finishOk v).ybuf = s.ybuf := rfl
@[simp] theorem State.finishOk_tbuf (v : Byte) (s : State) : (s.finishOk v).tbuf = s.tbuf := rfl
@[simp] theorem State.finishOk_abuf (v : Byte) (s : State) : (s.finishOk v).abuf = s.abuf := rfl
@[simp] theorem State.finishOk_cmdl (v : Byte) (s : State) : (s.finishOk v).cmdl = s.cmdl := rfl
@[simp] theorem State.finishOk_ra (v : Byte) (s : State) : (s.finishOk v).ra = s.ra := rfl
@[simp] theorem State.finishOk_lutWritten (v : Byte) (s : State) : (s.finishOk v).lutWritten = s.lutWritten := rfl
@[simp] theorem State.finishOk_program (v : Byte) (s : State) : (s.finishOk v).program = s.program := rfl
@[simp] theorem State.finishOk_reads (v : Byte) (s : State) : (s.finishOk v).reads = s.reads := rfl
@[simp] theorem State.finishOk_turns (v : Byte) (s : State) : (s.finishOk v).turns = s.turns := rfl
@[simp] theorem State.finishOk_requests (v : Byte) (s : State) : (s.finishOk v).requests = s.requests := rfl
@[simp] theorem State.finishOk_cipher (v : Byte) (s : State) : (s.finishOk v).cipher = s.cipher := rfl
@[simp] theorem State.finishOk_draws (v : Byte) (s : State) : (s.finishOk v).draws = s.draws := rfl
@[simp] theorem State.finishOk_drawn (v : Byte) (s : State) : (s.finishOk v).drawn = s.drawn := rfl

/-! ## finishErr -/

@[simp] theorem State.finishErr_params (e : ErrCode) (s : State) : (s.finishErr e).params = s.params := rfl
@[simp] theorem State.finishErr_resetIn (e : ErrCode) (s : State) : (s.finishErr e).resetIn = s.resetIn := rfl
@[simp] theorem State.finishErr_ready (e : ErrCode) (s : State) : (s.finishErr e).ready = s.ready := rfl
@[simp] theorem State.finishErr_phase (e : ErrCode) (s : State) : (s.finishErr e).phase = .idle := rfl
@[simp] theorem State.finishErr_done (e : ErrCode) (s : State) : (s.finishErr e).done = true := rfl
@[simp] theorem State.finishErr_rvalid (e : ErrCode) (s : State) : (s.finishErr e).rvalid = false := rfl
@[simp] theorem State.finishErr_lost (e : ErrCode) (s : State) : (s.finishErr e).lost = s.lost := rfl
@[simp] theorem State.finishErr_err (e : ErrCode) (s : State) : (s.finishErr e).err = e := rfl
@[simp] theorem State.finishErr_ie (e : ErrCode) (s : State) : (s.finishErr e).ie = s.ie := rfl
@[simp] theorem State.finishErr_result (e : ErrCode) (s : State) : (s.finishErr e).result = 0#8 := rfl
@[simp] theorem State.finishErr_idr (e : ErrCode) (s : State) : (s.finishErr e).idr = s.idr := rfl
@[simp] theorem State.finishErr_n (e : ErrCode) (s : State) : (s.finishErr e).n = s.n := rfl
@[simp] theorem State.finishErr_m (e : ErrCode) (s : State) : (s.finishErr e).m = s.m := rfl
@[simp] theorem State.finishErr_iv0 (e : ErrCode) (s : State) : (s.finishErr e).iv0 = s.iv0 := rfl
@[simp] theorem State.finishErr_iv1 (e : ErrCode) (s : State) : (s.finishErr e).iv1 = s.iv1 := rfl
@[simp] theorem State.finishErr_iv2 (e : ErrCode) (s : State) : (s.finishErr e).iv2 = s.iv2 := rfl
@[simp] theorem State.finishErr_iv3 (e : ErrCode) (s : State) : (s.finishErr e).iv3 = s.iv3 := rfl
@[simp] theorem State.finishErr_k1 (e : ErrCode) (s : State) : (s.finishErr e).k1 = s.k1 := rfl
@[simp] theorem State.finishErr_k2 (e : ErrCode) (s : State) : (s.finishErr e).k2 = s.k2 := rfl
@[simp] theorem State.finishErr_ybuf (e : ErrCode) (s : State) : (s.finishErr e).ybuf = s.ybuf := rfl
@[simp] theorem State.finishErr_tbuf (e : ErrCode) (s : State) : (s.finishErr e).tbuf = s.tbuf := rfl
@[simp] theorem State.finishErr_abuf (e : ErrCode) (s : State) : (s.finishErr e).abuf = s.abuf := rfl
@[simp] theorem State.finishErr_cmdl (e : ErrCode) (s : State) : (s.finishErr e).cmdl = s.cmdl := rfl
@[simp] theorem State.finishErr_ra (e : ErrCode) (s : State) : (s.finishErr e).ra = s.ra := rfl
@[simp] theorem State.finishErr_lutWritten (e : ErrCode) (s : State) : (s.finishErr e).lutWritten = s.lutWritten := rfl
@[simp] theorem State.finishErr_program (e : ErrCode) (s : State) : (s.finishErr e).program = s.program := rfl
@[simp] theorem State.finishErr_reads (e : ErrCode) (s : State) : (s.finishErr e).reads = s.reads := rfl
@[simp] theorem State.finishErr_turns (e : ErrCode) (s : State) : (s.finishErr e).turns = s.turns := rfl
@[simp] theorem State.finishErr_requests (e : ErrCode) (s : State) : (s.finishErr e).requests = s.requests := rfl
@[simp] theorem State.finishErr_cipher (e : ErrCode) (s : State) : (s.finishErr e).cipher = s.cipher := rfl
@[simp] theorem State.finishErr_draws (e : ErrCode) (s : State) : (s.finishErr e).draws = s.draws := rfl
@[simp] theorem State.finishErr_drawn (e : ErrCode) (s : State) : (s.finishErr e).drawn = s.drawn := rfl

/-! ## writeStatus -/

@[simp] theorem State.writeStatus_params (v : Word) (s : State) : (s.writeStatus v).params = s.params := rfl
@[simp] theorem State.writeStatus_resetIn (v : Word) (s : State) : (s.writeStatus v).resetIn = s.resetIn := rfl
@[simp] theorem State.writeStatus_ready (v : Word) (s : State) : (s.writeStatus v).ready = s.ready := rfl
@[simp] theorem State.writeStatus_phase (v : Word) (s : State) : (s.writeStatus v).phase = s.phase := rfl
@[simp] theorem State.writeStatus_done (v : Word) (s : State) : (s.writeStatus v).done = (if v.getLsbD 2 = true then false else s.done) := rfl
@[simp] theorem State.writeStatus_rvalid (v : Word) (s : State) : (s.writeStatus v).rvalid = s.rvalid := rfl
@[simp] theorem State.writeStatus_lost (v : Word) (s : State) : (s.writeStatus v).lost = (if v.getLsbD 4 = true then false else s.lost) := rfl
@[simp] theorem State.writeStatus_err (v : Word) (s : State) : (s.writeStatus v).err = s.err := rfl
@[simp] theorem State.writeStatus_ie (v : Word) (s : State) : (s.writeStatus v).ie = s.ie := rfl
@[simp] theorem State.writeStatus_result (v : Word) (s : State) : (s.writeStatus v).result = s.result := rfl
@[simp] theorem State.writeStatus_idr (v : Word) (s : State) : (s.writeStatus v).idr = s.idr := rfl
@[simp] theorem State.writeStatus_n (v : Word) (s : State) : (s.writeStatus v).n = s.n := rfl
@[simp] theorem State.writeStatus_m (v : Word) (s : State) : (s.writeStatus v).m = s.m := rfl
@[simp] theorem State.writeStatus_iv0 (v : Word) (s : State) : (s.writeStatus v).iv0 = s.iv0 := rfl
@[simp] theorem State.writeStatus_iv1 (v : Word) (s : State) : (s.writeStatus v).iv1 = s.iv1 := rfl
@[simp] theorem State.writeStatus_iv2 (v : Word) (s : State) : (s.writeStatus v).iv2 = s.iv2 := rfl
@[simp] theorem State.writeStatus_iv3 (v : Word) (s : State) : (s.writeStatus v).iv3 = s.iv3 := rfl
@[simp] theorem State.writeStatus_k1 (v : Word) (s : State) : (s.writeStatus v).k1 = s.k1 := rfl
@[simp] theorem State.writeStatus_k2 (v : Word) (s : State) : (s.writeStatus v).k2 = s.k2 := rfl
@[simp] theorem State.writeStatus_ybuf (v : Word) (s : State) : (s.writeStatus v).ybuf = s.ybuf := rfl
@[simp] theorem State.writeStatus_tbuf (v : Word) (s : State) : (s.writeStatus v).tbuf = s.tbuf := rfl
@[simp] theorem State.writeStatus_abuf (v : Word) (s : State) : (s.writeStatus v).abuf = s.abuf := rfl
@[simp] theorem State.writeStatus_cmdl (v : Word) (s : State) : (s.writeStatus v).cmdl = s.cmdl := rfl
@[simp] theorem State.writeStatus_ra (v : Word) (s : State) : (s.writeStatus v).ra = s.ra := rfl
@[simp] theorem State.writeStatus_lutWritten (v : Word) (s : State) : (s.writeStatus v).lutWritten = s.lutWritten := rfl
@[simp] theorem State.writeStatus_program (v : Word) (s : State) : (s.writeStatus v).program = s.program := rfl
@[simp] theorem State.writeStatus_reads (v : Word) (s : State) : (s.writeStatus v).reads = s.reads := rfl
@[simp] theorem State.writeStatus_turns (v : Word) (s : State) : (s.writeStatus v).turns = s.turns := rfl
@[simp] theorem State.writeStatus_requests (v : Word) (s : State) : (s.writeStatus v).requests = s.requests := rfl
@[simp] theorem State.writeStatus_cipher (v : Word) (s : State) : (s.writeStatus v).cipher = s.cipher := rfl
@[simp] theorem State.writeStatus_draws (v : Word) (s : State) : (s.writeStatus v).draws = s.draws := rfl
@[simp] theorem State.writeStatus_drawn (v : Word) (s : State) : (s.writeStatus v).drawn = s.drawn := rfl

/-! ## dropDraws -/

@[simp] theorem State.dropDraws_params (k : Nat) (s : State) : (s.dropDraws k).params = s.params := rfl
@[simp] theorem State.dropDraws_resetIn (k : Nat) (s : State) : (s.dropDraws k).resetIn = s.resetIn := rfl
@[simp] theorem State.dropDraws_ready (k : Nat) (s : State) : (s.dropDraws k).ready = s.ready := rfl
@[simp] theorem State.dropDraws_phase (k : Nat) (s : State) : (s.dropDraws k).phase = s.phase := rfl
@[simp] theorem State.dropDraws_done (k : Nat) (s : State) : (s.dropDraws k).done = s.done := rfl
@[simp] theorem State.dropDraws_rvalid (k : Nat) (s : State) : (s.dropDraws k).rvalid = s.rvalid := rfl
@[simp] theorem State.dropDraws_lost (k : Nat) (s : State) : (s.dropDraws k).lost = s.lost := rfl
@[simp] theorem State.dropDraws_err (k : Nat) (s : State) : (s.dropDraws k).err = s.err := rfl
@[simp] theorem State.dropDraws_ie (k : Nat) (s : State) : (s.dropDraws k).ie = s.ie := rfl
@[simp] theorem State.dropDraws_result (k : Nat) (s : State) : (s.dropDraws k).result = s.result := rfl
@[simp] theorem State.dropDraws_idr (k : Nat) (s : State) : (s.dropDraws k).idr = s.idr := rfl
@[simp] theorem State.dropDraws_n (k : Nat) (s : State) : (s.dropDraws k).n = s.n := rfl
@[simp] theorem State.dropDraws_m (k : Nat) (s : State) : (s.dropDraws k).m = s.m := rfl
@[simp] theorem State.dropDraws_iv0 (k : Nat) (s : State) : (s.dropDraws k).iv0 = s.iv0 := rfl
@[simp] theorem State.dropDraws_iv1 (k : Nat) (s : State) : (s.dropDraws k).iv1 = s.iv1 := rfl
@[simp] theorem State.dropDraws_iv2 (k : Nat) (s : State) : (s.dropDraws k).iv2 = s.iv2 := rfl
@[simp] theorem State.dropDraws_iv3 (k : Nat) (s : State) : (s.dropDraws k).iv3 = s.iv3 := rfl
@[simp] theorem State.dropDraws_k1 (k : Nat) (s : State) : (s.dropDraws k).k1 = s.k1 := rfl
@[simp] theorem State.dropDraws_k2 (k : Nat) (s : State) : (s.dropDraws k).k2 = s.k2 := rfl
@[simp] theorem State.dropDraws_ybuf (k : Nat) (s : State) : (s.dropDraws k).ybuf = s.ybuf := rfl
@[simp] theorem State.dropDraws_tbuf (k : Nat) (s : State) : (s.dropDraws k).tbuf = s.tbuf := rfl
@[simp] theorem State.dropDraws_abuf (k : Nat) (s : State) : (s.dropDraws k).abuf = s.abuf := rfl
@[simp] theorem State.dropDraws_cmdl (k : Nat) (s : State) : (s.dropDraws k).cmdl = s.cmdl := rfl
@[simp] theorem State.dropDraws_ra (k : Nat) (s : State) : (s.dropDraws k).ra = s.ra := rfl
@[simp] theorem State.dropDraws_lutWritten (k : Nat) (s : State) : (s.dropDraws k).lutWritten = s.lutWritten := rfl
@[simp] theorem State.dropDraws_program (k : Nat) (s : State) : (s.dropDraws k).program = s.program := rfl
@[simp] theorem State.dropDraws_reads (k : Nat) (s : State) : (s.dropDraws k).reads = s.reads := rfl
@[simp] theorem State.dropDraws_turns (k : Nat) (s : State) : (s.dropDraws k).turns = s.turns := rfl
@[simp] theorem State.dropDraws_requests (k : Nat) (s : State) : (s.dropDraws k).requests = s.requests := rfl
@[simp] theorem State.dropDraws_cipher (k : Nat) (s : State) : (s.dropDraws k).cipher = s.cipher := rfl
@[simp] theorem State.dropDraws_draws (k : Nat) (s : State) : (s.dropDraws k).draws = s.draws.drop k := rfl
@[simp] theorem State.dropDraws_drawn (k : Nat) (s : State) : (s.dropDraws k).drawn = s.drawn + (k - s.draws.length) := rfl

/-! ## popTurn -/

@[simp] theorem State.popTurn_params (s : State) : (s.popTurn).params = s.params := rfl
@[simp] theorem State.popTurn_resetIn (s : State) : (s.popTurn).resetIn = s.resetIn := rfl
@[simp] theorem State.popTurn_ready (s : State) : (s.popTurn).ready = s.ready := rfl
@[simp] theorem State.popTurn_phase (s : State) : (s.popTurn).phase = s.phase := rfl
@[simp] theorem State.popTurn_done (s : State) : (s.popTurn).done = s.done := rfl
@[simp] theorem State.popTurn_rvalid (s : State) : (s.popTurn).rvalid = s.rvalid := rfl
@[simp] theorem State.popTurn_lost (s : State) : (s.popTurn).lost = s.lost := rfl
@[simp] theorem State.popTurn_err (s : State) : (s.popTurn).err = s.err := rfl
@[simp] theorem State.popTurn_ie (s : State) : (s.popTurn).ie = s.ie := rfl
@[simp] theorem State.popTurn_result (s : State) : (s.popTurn).result = s.result := rfl
@[simp] theorem State.popTurn_idr (s : State) : (s.popTurn).idr = s.idr := rfl
@[simp] theorem State.popTurn_n (s : State) : (s.popTurn).n = s.n := rfl
@[simp] theorem State.popTurn_m (s : State) : (s.popTurn).m = s.m := rfl
@[simp] theorem State.popTurn_iv0 (s : State) : (s.popTurn).iv0 = s.iv0 := rfl
@[simp] theorem State.popTurn_iv1 (s : State) : (s.popTurn).iv1 = s.iv1 := rfl
@[simp] theorem State.popTurn_iv2 (s : State) : (s.popTurn).iv2 = s.iv2 := rfl
@[simp] theorem State.popTurn_iv3 (s : State) : (s.popTurn).iv3 = s.iv3 := rfl
@[simp] theorem State.popTurn_k1 (s : State) : (s.popTurn).k1 = s.k1 := rfl
@[simp] theorem State.popTurn_k2 (s : State) : (s.popTurn).k2 = s.k2 := rfl
@[simp] theorem State.popTurn_ybuf (s : State) : (s.popTurn).ybuf = s.ybuf := rfl
@[simp] theorem State.popTurn_tbuf (s : State) : (s.popTurn).tbuf = s.tbuf := rfl
@[simp] theorem State.popTurn_abuf (s : State) : (s.popTurn).abuf = s.abuf := rfl
@[simp] theorem State.popTurn_cmdl (s : State) : (s.popTurn).cmdl = s.cmdl := rfl
@[simp] theorem State.popTurn_ra (s : State) : (s.popTurn).ra = s.ra := rfl
@[simp] theorem State.popTurn_lutWritten (s : State) : (s.popTurn).lutWritten = s.lutWritten := rfl
@[simp] theorem State.popTurn_program (s : State) : (s.popTurn).program = s.program := rfl
@[simp] theorem State.popTurn_reads (s : State) : (s.popTurn).reads = s.reads := rfl
@[simp] theorem State.popTurn_turns (s : State) : (s.popTurn).turns = s.turns.tail := rfl
@[simp] theorem State.popTurn_requests (s : State) : (s.popTurn).requests = s.requests := rfl
@[simp] theorem State.popTurn_cipher (s : State) : (s.popTurn).cipher = s.cipher := rfl
@[simp] theorem State.popTurn_draws (s : State) : (s.popTurn).draws = s.draws := rfl
@[simp] theorem State.popTurn_drawn (s : State) : (s.popTurn).drawn = s.drawn := rfl

/-! ## resetBlock -/

@[simp] theorem State.resetBlock_params (s : State) : (s.resetBlock).params = s.params := rfl
@[simp] theorem State.resetBlock_resetIn (s : State) : (s.resetBlock).resetIn = s.resetIn := rfl
@[simp] theorem State.resetBlock_ready (s : State) : (s.resetBlock).ready = false := rfl
@[simp] theorem State.resetBlock_phase (s : State) : (s.resetBlock).phase = .idle := rfl
@[simp] theorem State.resetBlock_done (s : State) : (s.resetBlock).done = false := rfl
@[simp] theorem State.resetBlock_rvalid (s : State) : (s.resetBlock).rvalid = false := rfl
@[simp] theorem State.resetBlock_lost (s : State) : (s.resetBlock).lost = false := rfl
@[simp] theorem State.resetBlock_err (s : State) : (s.resetBlock).err = .noError := rfl
@[simp] theorem State.resetBlock_ie (s : State) : (s.resetBlock).ie = false := rfl
@[simp] theorem State.resetBlock_result (s : State) : (s.resetBlock).result = 0#8 := rfl
@[simp] theorem State.resetBlock_idr (s : State) : (s.resetBlock).idr = 0#16 := rfl
@[simp] theorem State.resetBlock_n (s : State) : (s.resetBlock).n = 0#16 := rfl
@[simp] theorem State.resetBlock_m (s : State) : (s.resetBlock).m = 0#16 := rfl
@[simp] theorem State.resetBlock_iv0 (s : State) : (s.resetBlock).iv0 = 0#32 := rfl
@[simp] theorem State.resetBlock_iv1 (s : State) : (s.resetBlock).iv1 = 0#32 := rfl
@[simp] theorem State.resetBlock_iv2 (s : State) : (s.resetBlock).iv2 = 0#32 := rfl
@[simp] theorem State.resetBlock_iv3 (s : State) : (s.resetBlock).iv3 = 0#32 := rfl
@[simp] theorem State.resetBlock_k1 (s : State) : (s.resetBlock).k1 = KeyStore.empty := rfl
@[simp] theorem State.resetBlock_k2 (s : State) : (s.resetBlock).k2 = KeyStore.empty := rfl
@[simp] theorem State.resetBlock_ybuf (s : State) : (s.resetBlock).ybuf = Buffer.empty := rfl
@[simp] theorem State.resetBlock_tbuf (s : State) : (s.resetBlock).tbuf = Buffer.empty := rfl
@[simp] theorem State.resetBlock_abuf (s : State) : (s.resetBlock).abuf = Buffer.empty := rfl
@[simp] theorem State.resetBlock_cmdl (s : State) : (s.resetBlock).cmdl = 0#32 := rfl
@[simp] theorem State.resetBlock_ra (s : State) : (s.resetBlock).ra = false := rfl
@[simp] theorem State.resetBlock_lutWritten (s : State) : (s.resetBlock).lutWritten = 0 := rfl
@[simp] theorem State.resetBlock_program (s : State) : (s.resetBlock).program = s.program := rfl
@[simp] theorem State.resetBlock_reads (s : State) : (s.resetBlock).reads = s.reads := rfl
@[simp] theorem State.resetBlock_turns (s : State) : (s.resetBlock).turns = s.turns := rfl
@[simp] theorem State.resetBlock_requests (s : State) : (s.resetBlock).requests = s.requests := rfl
@[simp] theorem State.resetBlock_cipher (s : State) : (s.resetBlock).cipher = s.cipher := rfl
@[simp] theorem State.resetBlock_draws (s : State) : (s.resetBlock).draws = s.draws := rfl
@[simp] theorem State.resetBlock_drawn (s : State) : (s.resetBlock).drawn = s.drawn := rfl

/-! ## assertReset -/

@[simp] theorem State.assertReset_params (s : State) : s.assertReset.params = s.params := rfl
@[simp] theorem State.assertReset_resetIn (s : State) : s.assertReset.resetIn = true := rfl
@[simp] theorem State.assertReset_ready (s : State) : s.assertReset.ready = false := rfl
@[simp] theorem State.assertReset_phase (s : State) : s.assertReset.phase = .idle := rfl
@[simp] theorem State.assertReset_done (s : State) : s.assertReset.done = false := rfl
@[simp] theorem State.assertReset_rvalid (s : State) : s.assertReset.rvalid = false := rfl
@[simp] theorem State.assertReset_lost (s : State) : s.assertReset.lost = false := rfl
@[simp] theorem State.assertReset_err (s : State) : s.assertReset.err = .noError := rfl
@[simp] theorem State.assertReset_ie (s : State) : s.assertReset.ie = false := rfl
@[simp] theorem State.assertReset_result (s : State) : s.assertReset.result = 0#8 := rfl
@[simp] theorem State.assertReset_idr (s : State) : s.assertReset.idr = 0#16 := rfl
@[simp] theorem State.assertReset_n (s : State) : s.assertReset.n = 0#16 := rfl
@[simp] theorem State.assertReset_m (s : State) : s.assertReset.m = 0#16 := rfl
@[simp] theorem State.assertReset_iv0 (s : State) : s.assertReset.iv0 = 0#32 := rfl
@[simp] theorem State.assertReset_iv1 (s : State) : s.assertReset.iv1 = 0#32 := rfl
@[simp] theorem State.assertReset_iv2 (s : State) : s.assertReset.iv2 = 0#32 := rfl
@[simp] theorem State.assertReset_iv3 (s : State) : s.assertReset.iv3 = 0#32 := rfl
@[simp] theorem State.assertReset_k1 (s : State) : s.assertReset.k1 = KeyStore.empty := rfl
@[simp] theorem State.assertReset_k2 (s : State) : s.assertReset.k2 = KeyStore.empty := rfl
@[simp] theorem State.assertReset_ybuf (s : State) : s.assertReset.ybuf = Buffer.empty := rfl
@[simp] theorem State.assertReset_tbuf (s : State) : s.assertReset.tbuf = Buffer.empty := rfl
@[simp] theorem State.assertReset_abuf (s : State) : s.assertReset.abuf = Buffer.empty := rfl
@[simp] theorem State.assertReset_cmdl (s : State) : s.assertReset.cmdl = 0#32 := rfl
@[simp] theorem State.assertReset_ra (s : State) : s.assertReset.ra = false := rfl
@[simp] theorem State.assertReset_lutWritten (s : State) : s.assertReset.lutWritten = 0 := rfl
@[simp] theorem State.assertReset_program (s : State) : s.assertReset.program = s.program := rfl
@[simp] theorem State.assertReset_reads (s : State) : s.assertReset.reads = s.reads := rfl
@[simp] theorem State.assertReset_turns (s : State) : s.assertReset.turns = s.turns := rfl
@[simp] theorem State.assertReset_requests (s : State) : s.assertReset.requests = s.requests := rfl
@[simp] theorem State.assertReset_cipher (s : State) : s.assertReset.cipher = s.cipher := rfl
@[simp] theorem State.assertReset_draws (s : State) : s.assertReset.draws = s.draws := rfl
@[simp] theorem State.assertReset_drawn (s : State) : s.assertReset.drawn = s.drawn := rfl

/-! ## What a register read does not depend on -/

@[simp] theorem regRead_popTurn (s : State) (off : Nat) : s.popTurn.regRead off = s.regRead off := rfl

end Sys2Proof.Machine
end

