-- ==== Sys2Proof/Laws/Ops.lean ====
section
/-! SUPPORT. What each shared operation can do, said once. -/

namespace Sys2Proof.Machine

/-- The only fields a keystream query changes are the supplier's side (R156, R163). -/
structure State.SupplierOnly (s t : State) : Prop where
  eq : t = { s with requests := t.requests, draws := t.draws, drawn := t.drawn }

theorem State.SupplierOnly.refl (s : State) : s.SupplierOnly s := ⟨rfl⟩

theorem State.SupplierOnly.trans {s t u : State} (h : s.SupplierOnly t) (h' : t.SupplierOnly u) :
    s.SupplierOnly u := by
  refine ⟨?_⟩
  rw [h'.eq, h.eq]

theorem ksQuery_snd (q : KsRequest) (s : State) :
    (s.ksQuery q).2 =
      { s with
        requests := s.requests ++ [q], draws := s.draws.drop 1, drawn := s.drawn + (1 - s.draws.length) } := by
  unfold State.ksQuery
  split <;> rfl

theorem ksQuery_fst (q : KsRequest) (s : State) :
    (s.ksQuery q).1 = if s.draw 0 then none else some (s.ks q.key q.iv q.pt) := by
  unfold State.ksQuery
  cases s.draw 0 <;> rfl

theorem ksQuery_supplierOnly (q : KsRequest) (s : State) : s.SupplierOnly (s.ksQuery q).2 := by
  rw [ksQuery_snd]; exact ⟨rfl⟩

theorem queryPrfs_supplierOnly (left j : Nat) (s : State) : s.SupplierOnly (State.queryPrfs left j s).2 := by
  induction left generalizing j s with
  | zero => exact .refl s
  | succ left ih =>
    have hq := ksQuery_supplierOnly (s.prfRequest j) s
    simp only [State.queryPrfs]
    split
    · next t h => rw [h] at hq; exact hq
    · next c t h =>
      rw [h] at hq
      have hp := ih (j + 1) t
      split
      · next u h' => rw [h'] at hp; exact hq.trans hp
      · next f u h' => rw [h'] at hp; exact hq.trans hp

theorem queryKeystream_supplierOnly (s : State) : s.SupplierOnly s.queryKeystream.2 := by
  have hq := ksQuery_supplierOnly s.prgRequest s
  unfold State.queryKeystream
  split
  · next t h => rw [h] at hq; exact hq
  · next c t h =>
    rw [h] at hq
    have hp := queryPrfs_supplierOnly s.m.toNat 0 t
    split
    · next u h' => rw [h'] at hp; exact hq.trans hp
    · next f u h' => rw [h'] at hp; exact hq.trans hp

/-- Everything the shared completion of MAC and VERIFY can do (R170, R200). -/
theorem completeTag_cases (value : Byte → Byte) (s : State) :
    (s.ra = false ∧ s.completeTag value = s.finishErr .notReady) ∨
    (s.ra = true ∧ ∃ e, s.checkTagInputs = some e ∧ s.completeTag value = s.finishErr e) ∨
    (s.ra = true ∧ s.checkTagInputs = none ∧ ∃ t, s.queryKeystream = (none, t) ∧
      s.completeTag value = t.finishErr .cryptoFailure) ∨
    (s.ra = true ∧ s.checkTagInputs = none ∧ ∃ r f t, s.queryKeystream = (some (r, f), t) ∧
      s.completeTag value = t.finishOk (value (tagfold t.lutRead r f t.ybuf.elems t.n.toNat))) := by
  unfold State.completeTag
  cases hra : s.ra with
  | false => simp
  | true =>
    cases hc : s.checkTagInputs with
    | some e => simp
    | none =>
      rcases hk : s.queryKeystream with ⟨_ | ⟨r, f⟩, t⟩ <;> simp

/-- Only these codes come from the input checks of MAC and VERIFY (R171). -/
theorem checkTagInputs_codes {s : State} {e : ErrCode} (h : s.checkTagInputs = some e) :
    e = .invalidKeyLength ∨ e = .invalidIdentifier ∨ e = .invalidParameter ∨ e = .capacityExceeded ∨
      e = .vectorLengthMismatch := by
  unfold State.checkTagInputs at h
  repeat' split at h
  all_goals simp_all

/-- The input checks pass exactly when the operands are as R263 item 4 asks (R171). -/
theorem checkTagInputs_none_iff (s : State) : s.checkTagInputs = none ↔ s.TagInputsOk := by
  have hn : s.n = 0#16 ↔ s.n.toNat = 0 := by
    constructor
    · intro h; simp [h]
    · intro h; exact BitVec.eq_of_toNat_eq (by simpa using h)
  have hm : s.m = 0#16 ↔ s.m.toNat = 0 := by
    constructor
    · intro h; simp [h]
    · intro h; exact BitVec.eq_of_toNat_eq (by simpa using h)
  unfold State.checkTagInputs
  constructor
  · intro h
    repeat' split at h
    all_goals first | contradiction | skip
    simp_all [KeyStore.valid, State.vecLen, Buffer.len]
    constructor <;> first | assumption | omega
  · rintro ⟨⟨a1, a2⟩, ⟨b1, b2⟩, ⟨c1, c2⟩, d, e, f, ⟨g1, g2⟩⟩
    have c1' : s.idr.toNat ≠ 0 := by omega
    have d' : s.n.toNat ≠ 0 := by omega
    have e' : s.m.toNat ≠ 0 := by omega
    have c3 : ¬ 100 < s.idr.toNat := by omega
    have f' : ¬ s.params.vmax < s.n.toNat + s.m.toNat := by omega
    simp [KeyStore.valid, State.vecLen, Buffer.len, a1, a2, b1, b2, hn, hm, d', e', g1, g2, c1', c3, f']

/-- A write of an admitted offset: nothing, LOST alone, or the register's own effect (R75). -/
theorem regWrite_cases (off : Nat) (v : Word) (s : State) :
    (regAt off = none ∧ s.regWrite off v = s) ∨
    (∃ r, regAt off = some r ∧ regGuarded r = true ∧ s.phase = .busy ∧ s.regWrite off v = { s with lost := true }) ∨
    (∃ r, regAt off = some r ∧ (regGuarded r = false ∨ s.phase = .idle) ∧ s.regWrite off v = s.writeReg r v) := by
  unfold State.regWrite
  cases h : regAt off with
  | none => exact .inl ⟨rfl, rfl⟩
  | some r =>
    cases hg : regGuarded r <;> cases hp : s.phase <;> simp [State.busy, hp, hg]

/-- Everything the engine's turn can do. -/
theorem engineTurn_cases (s : State) :
    (s.phase = .idle ∧ engineTurn s = .next s) ∨
    (s.phase = .busy ∧ ∃ i, decode s.cmdl = .ok i ∧ engineTurn s = exec i s) ∨
    (s.phase = .busy ∧ ∃ e, decode s.cmdl = .error e ∧ engineTurn s = .next (s.finishErr .illegalCommand)) := by
  unfold engineTurn
  cases hp : s.phase with
  | idle => simp
  | busy => cases hd : decode s.cmdl <;> simp

/-- An admitted access is an aligned 32-bit word inside the window (R73). -/
theorem admitAccess_next_iff (base addr size off : Nat) :
    admitAccess base addr size = .next off ↔
      base ≤ addr ∧ addr < base + 256 ∧ size = 4 ∧ addr % 4 = 0 ∧ off = addr - base := by
  unfold admitAccess
  split
  · next h => simp at h ⊢; omega
  · next h =>
    split
    · next h2 => simp at h h2 ⊢; omega
    · next h2 => simp at h h2 ⊢; omega

/-- An access in the window of another size or alignment is refused (R73). -/
theorem admitAccess_refused {base addr size : Nat} (h1 : base ≤ addr) (h2 : addr < base + 256)
    (h3 : size ≠ 4 ∨ addr % 4 ≠ 0) : admitAccess base addr size = .refused .undefinedAccess := by
  unfold admitAccess
  rw [if_neg (by simp; omega), if_neg (by simp; omega)]

/-- A write statement whose access is admitted performs the register write. -/
theorem hostTurn_wr {s : State} {addr size off : Nat} {v : Word} {rest : List HostStmt}
    (hp : s.program = .wr addr size v :: rest) (ha : admitAccess s.params.base addr size = .next off) :
    hostTurn s = .next ({ s with program := rest }.regWrite off v) := by
  simp [hostTurn, hp, ha]

/-- A read statement whose access is admitted records the register's value. -/
theorem hostTurn_rd {s : State} {addr size off : Nat} {rest : List HostStmt}
    (hp : s.program = .rd addr size :: rest) (ha : admitAccess s.params.base addr size = .next off) :
    hostTurn s = .next { s with program := rest, reads := s.reads ++ [s.regRead off] } := by
  simp [hostTurn, hp, ha]

/-- A poll whose access is admitted records the register's value and stays until its condition holds. -/
theorem hostTurn_poll {s : State} {addr size off : Nat} {mask val : Word} {rest : List HostStmt}
    (hp : s.program = .poll addr size mask val :: rest)
    (ha : admitAccess s.params.base addr size = .next off) :
    hostTurn s =
      .next
        { s with
          program := if s.regRead off &&& mask = val then rest else s.program,
          reads := s.reads ++ [s.regRead off] } := by
  simp [hostTurn, hp, ha]

/-- Everything a host turn that answers a next state can do. -/
theorem hostTurn_cases {s t : State} (h : hostTurn s = .next t) :
    (s.program = [] ∧ t = s) ∨
    (∃ addr size v rest off, s.program = .wr addr size v :: rest ∧
      admitAccess s.params.base addr size = .next off ∧ t = { s with program := rest }.regWrite off v) ∨
    (∃ off rest, rest <:+ s.program ∧ t = { s with program := rest, reads := s.reads ++ [s.regRead off] }) := by
  unfold hostTurn at h
  split at h
  · next hp => cases h; exact .inl ⟨hp, rfl⟩
  · next addr size v rest hp =>
    split at h
    · next off ha => cases h; exact .inr (.inl ⟨addr, size, v, rest, off, hp, ha, rfl⟩)
    · cases h
    · cases h
  · next addr size rest hp =>
    split at h
    · cases h; exact .inr (.inr ⟨_, _, hp ▸ List.suffix_cons _ _, rfl⟩)
    · cases h
    · cases h
  · next addr size mask val rest hp =>
    split at h
    · cases h
      refine .inr (.inr ⟨_, _, ?_, rfl⟩)
      split
      · exact hp ▸ List.suffix_cons _ _
      · exact List.suffix_rfl
    · cases h
    · cases h

theorem initialise_eq (k : Nat) (s : State) :
    s.initialise k = s ∨
      (s.ready = false ∧
        s.initialise k =
          { s with
            lutWritten := min lutSize (s.lutWritten + k), ready := decide (lutSize ≤ s.lutWritten + k) }) := by
  unfold State.initialise
  cases h : s.ready <;> simp

end Sys2Proof.Machine
end

