-- ==== Sys2Proof/Laws/Exec.lean ====
section
/-! SUPPORT. What a command's completion, an agent's turn and a step can do, said once. -/

namespace Sys2Proof.Machine

/-- The codes an error completion of a decoded command can carry: every code but ILLEGAL_COMMAND (R231). -/
def commandCodes : List ErrCode :=
  [.notReady, .cryptoFailure, .capacityExceeded, .vectorLengthMismatch, .invalidKeyLength, .invalidIdentifier,
    .invalidParameter]

theorem completeTag_ends (value : Byte → Byte) (s : State) :
    ∃ u, s.SupplierOnly u ∧
      ((∃ v, s.completeTag value = u.finishOk v) ∨ ∃ e ∈ commandCodes, s.completeTag value = u.finishErr e) := by
  have hq := queryKeystream_supplierOnly s
  rcases completeTag_cases value s with ⟨_, h⟩ | ⟨_, e, he, h⟩ | ⟨_, _, t, ht, h⟩ | ⟨_, _, r, f, t, ht, h⟩
  · exact ⟨s, .refl s, .inr ⟨_, by simp [commandCodes], h⟩⟩
  · refine ⟨s, .refl s, .inr ⟨e, ?_, h⟩⟩
    rcases checkTagInputs_codes he with h | h | h | h | h <;> simp [h, commandCodes]
  · rw [ht] at hq; exact ⟨t, hq, .inr ⟨_, by simp [commandCodes], h⟩⟩
  · rw [ht] at hq; exact ⟨t, hq, .inl ⟨_, h⟩⟩

theorem checkCombineInputs_codes {s : State} {e : ErrCode} (h : s.checkCombineInputs = some e) :
    e = .capacityExceeded ∨ e = .vectorLengthMismatch := by
  unfold State.checkCombineInputs at h
  repeat' split at h
  all_goals simp_all

/-- How any command ends: with `finishOk` or `finishErr` after changes of the supplier's side alone (none but for MAC
and VERIFY), or, for the three clearing commands, with `finishOk` after their clearing. -/
theorem exec_cases (i : Instr) (s : State) :
    (∃ u, s.SupplierOnly u ∧ ((i ≠ .mac ∧ ∀ c, i ≠ .verify c) → u = s) ∧
      ((∃ v, exec i s = .next (u.finishOk v)) ∨ ∃ e ∈ commandCodes, exec i s = .next (u.finishErr e))) ∨
    (i = .clry ∧ exec i s = .next ({ s with ybuf := Buffer.empty }.finishOk 0#8)) ∨
    (i = .clrc ∧ exec i s = .next ({ s with tbuf := Buffer.empty, abuf := Buffer.empty }.finishOk 0#8)) ∨
    (i = .clrkey ∧ exec i s = .next ({ s with k1 := KeyStore.empty, k2 := KeyStore.empty }.finishOk 0#8)) := by
  cases i with
  | clry => exact .inr (.inl ⟨rfl, rfl⟩)
  | clrc => exact .inr (.inr (.inl ⟨rfl, rfl⟩))
  | clrkey => exact .inr (.inr (.inr ⟨rfl, rfl⟩))
  | nop => exact .inl ⟨s, .refl s, fun _ => rfl, .inl ⟨0#8, rfl⟩⟩
  | mul a b =>
    refine .inl ⟨s, .refl s, fun _ => rfl, ?_⟩
    simp only [exec, execMul]
    split
    · exact .inl ⟨_, rfl⟩
    · exact .inr ⟨.notReady, by simp [commandCodes], rfl⟩
  | mac =>
    obtain ⟨u, hu, h⟩ := completeTag_ends id s
    refine .inl ⟨u, hu, by simp, ?_⟩
    simpa only [exec, execMac, Host.Outcome.next.injEq] using h
  | verify c =>
    obtain ⟨u, hu, h⟩ := completeTag_ends (fun tc => if tc = c then 1#8 else 0#8) s
    refine .inl ⟨u, hu, by simp, ?_⟩
    simpa only [exec, execVerify, Host.Outcome.next.injEq] using h
  | combine =>
    refine .inl ⟨s, .refl s, fun _ => rfl, ?_⟩
    simp only [exec, execCombine]
    split
    · exact .inr ⟨.notReady, by simp [commandCodes], rfl⟩
    · split
      · next e he =>
        refine .inr ⟨e, ?_, rfl⟩
        rcases checkCombineInputs_codes he with h | h <;> simp [h, commandCodes]
      · exact .inl ⟨_, rfl⟩

/-- The host's step with reset released. -/
theorem step_host {s : State} (hr : s.resetIn = false) (hn : s.nextTurn = .host) : step s = hostTurn s.popTurn := by
  simp [step, runTurn, hn, hr]

/-- The host's step while reset is asserted (R260). -/
theorem step_host_held {s : State} (hr : s.resetIn = true) (hn : s.nextTurn = .host) :
    step s = holdReset (hostTurn s.popTurn.resetBlock) := by
  simp [step, runTurn, hn, hr]

/-- The engine's step with reset released. -/
theorem step_engine {s : State} (hr : s.resetIn = false) (hn : s.nextTurn = .engine) :
    step s = engineTurn s.popTurn := by
  simp [step, runTurn, hn, hr]

/-- The initialiser's step with reset released. -/
theorem step_initialiser {s : State} {k : Nat} (hr : s.resetIn = false) (hn : s.nextTurn = .initialiser k) :
    step s = .next (s.popTurn.initialise k) := by
  simp [step, runTurn, hn, hr]

/-- A host access under reset leaves the block at its reset values and moves only the host on (R260). -/
theorem hostTurn_resetBlock {s t : State} (h : hostTurn s = .next t) :
    t.resetBlock = { s.resetBlock with program := t.program, reads := t.reads } := by
  rcases hostTurn_cases h with ⟨_, rfl⟩ | ⟨addr, size, v, rest, off, _, _, rfl⟩ | ⟨off, rest, _, rfl⟩
  · rfl
  · rcases regWrite_cases off v { s with program := rest } with ⟨_, e⟩ | ⟨r, _, _, _, e⟩ | ⟨r, _, _, e⟩ <;> rw [e]
    · rfl
    · rfl
    · cases r <;> rfl
  · rfl

/-- Whose step a step is, and what it does: under an asserted reset the host's access or nothing, the two events of the
reset input, and the steps of the three agents with reset released (R6, R260). -/
theorem step_cases {s t : State} (h : step s = .next t) :
    (s.resetIn = true ∧ s.nextTurn = .host ∧
      ∃ u, hostTurn s.popTurn.resetBlock = .next u ∧ t = u.resetBlock) ∨
    (s.resetIn = true ∧ (s.nextTurn = .engine ∨ ∃ k, s.nextTurn = .initialiser k) ∧ t = s.popTurn.resetBlock) ∨
    (s.nextTurn = .assertReset ∧ t = s.popTurn.assertReset) ∨
    (s.nextTurn = .releaseReset ∧ t = s.popTurn.releaseReset) ∨
    (s.resetIn = false ∧ s.nextTurn = .host ∧ hostTurn s.popTurn = .next t) ∨
    (s.resetIn = false ∧ s.nextTurn = .engine ∧ engineTurn s.popTurn = .next t) ∨
    (s.resetIn = false ∧ ∃ k, s.nextTurn = .initialiser k ∧ t = s.popTurn.initialise k) := by
  unfold step runTurn at h
  rw [State.popTurn_resetIn] at h
  cases hn : s.nextTurn <;> cases hr : s.resetIn <;>
    simp only [hn, hr, if_true, if_false, Bool.false_eq_true, Host.Outcome.next.injEq] at h
  case host.true =>
    rcases hh : hostTurn s.popTurn.resetBlock with u | r | r <;> rw [hh] at h <;> simp only [holdReset] at h
    · cases h; exact .inl ⟨rfl, rfl, u, rfl, rfl⟩
    · cases h
    · cases h
  all_goals simp [h, eq_comm]

end Sys2Proof.Machine
end

