-- ==== Sys2Proof/Laws/Inv.lean ====
section
/-! SUPPORT. Each shared operation keeps the invariant of Safety.lean. -/

namespace Sys2Proof.Machine

/-- A push keeps the key store within 16 bytes (R76). -/
theorem keyStore_push_inv (k : KeyStore) (v : Word) (h : k.Inv) : (k.push v).Inv := by
  unfold KeyStore.push
  split
  · next hc =>
    refine ⟨by simp; omega, ?_, ?_⟩
    · intro ho; have := h.ovf_full ho; omega
    · intro i hi hle
      simp at hle
      have := h.unpushed_zero i hi (by omega)
      rw [Vector.getElem_set_ne _ _ (by omega)]; exact this
  · next hc =>
    refine ⟨h.cnt_le, ?_, h.unpushed_zero⟩
    intro _; have := h.cnt_le; simp; omega

/-- A push keeps the buffer within its depth (R77, R78). -/
theorem buffer_push_inv (cap : Nat) (b : Buffer) (v : Word) (h : b.Inv cap) : (b.push cap v).Inv cap := by
  unfold Buffer.push
  split
  · next hc =>
    refine ⟨by simp [Buffer.len] at *; omega, ?_⟩
    intro ho; have := h.ovf_full ho; omega
  · next hc =>
    refine ⟨h.len_le, fun _ => ?_⟩
    have := h.len_le
    simp [Buffer.len] at *; omega

theorem keyStore_empty_inv : KeyStore.empty.Inv := by
  refine ⟨by decide, by decide, ?_⟩
  intro i hi _; simp [KeyStore.empty]

theorem buffer_empty_inv (c) : Buffer.empty.Inv c := ⟨by simp [Buffer.empty, Buffer.len], by simp [Buffer.empty]⟩

/-- Acceptance (R44). -/
theorem accept_inv (w s) (h : State.Inv s) (hr : s.resetIn = false) : (s.accept w).Inv := by
  constructor <;> simp [hr]
  all_goals
    first
    | exact h.params_wf | exact h.ready_iff | exact h.written_le | exact h.k1_inv
    | exact h.k2_inv | exact h.ybuf_inv | exact h.tbuf_inv | exact h.abuf_inv

/-- Successful completion (R45). -/
theorem finishOk_inv (v s) (h : State.Inv s) (hr : s.resetIn = false) : (s.finishOk v).Inv := by
  constructor <;> simp [hr]
  all_goals
    first
    | exact h.params_wf | exact h.ready_iff | exact h.written_le | exact h.ra_ready | exact h.k1_inv
    | exact h.k2_inv | exact h.ybuf_inv | exact h.tbuf_inv | exact h.abuf_inv

/-- Error completion (R46). -/
theorem finishErr_inv (v s) (h : State.Inv s) (hr : s.resetIn = false) : (s.finishErr v).Inv := by
  constructor <;> simp [hr]
  all_goals
    first
    | exact h.params_wf | exact h.ready_iff | exact h.written_le | exact h.ra_ready | exact h.k1_inv
    | exact h.k2_inv | exact h.ybuf_inv | exact h.tbuf_inv | exact h.abuf_inv

/-- A register write that is not dropped (R75 to R81). -/
theorem writeReg_inv (r v s) (h : State.Inv s) (hr : s.resetIn = false) (hg : regGuarded r = false ∨ s.phase = .idle) :
    (s.writeReg r v).Inv := by
  have free : s.resetIn = true → ∀ P : Prop, P := fun ht => absurd ht (by simp [hr])
  cases r <;> simp only [State.writeReg]
  case cmd => exact accept_inv _ _ h hr
  case key1Push => exact { h with reset_held := fun ht => free ht _, k1_inv := keyStore_push_inv _ _ h.k1_inv }
  case key2Push => exact { h with reset_held := fun ht => free ht _, k2_inv := keyStore_push_inv _ _ h.k2_inv }
  case yPush => exact { h with reset_held := fun ht => free ht _, ybuf_inv := buffer_push_inv _ _ _ h.ybuf_inv }
  case tagPush => exact { h with reset_held := fun ht => free ht _, tbuf_inv := buffer_push_inv _ _ _ h.tbuf_inv }
  case alphaPush => exact { h with reset_held := fun ht => free ht _, abuf_inv := buffer_push_inv _ _ _ h.abuf_inv }
  case status =>
    refine { h with busy_clear := ?_, reset_held := fun ht => free ht _ }
    intro hb; have := h.busy_clear hb; simp [State.writeStatus, this]
  all_goals first | exact h | exact { h with reset_held := fun ht => free ht _ }

/-- The table initialiser (R133). -/
theorem initialise_inv (k s) (h : State.Inv s) (hr : s.resetIn = false) : (s.initialise k).Inv := by
  rcases initialise_eq k s with e | ⟨hready, e⟩ <;> rw [e]
  · exact h
  · have hw := h.written_le
    refine { h with reset_held := ?_, ready_iff := ?_, written_le := ?_, ra_ready := ?_ }
    · intro ht; simp [hr] at ht
    · simp
    · simp
    · intro hra; have := h.ra_ready hra; rw [hready] at this; exact absurd this (by simp)

/-- Reset takes the block to the values of R53 (R260). -/
theorem resetBlock_blockAtReset (s : State) : s.resetBlock.BlockAtReset := by simp [State.BlockAtReset]

theorem assertReset_blockAtReset (s : State) : s.assertReset.BlockAtReset := by simp [State.BlockAtReset]

/-- A block at its reset values meets the invariant, whatever the reset input is (R53, R260). -/
theorem blockAtReset_inv (s : State) (hp : s.params.wellFormed = true) (h : s.BlockAtReset) : s.Inv := by
  have hb := h
  obtain ⟨h1, h2, h3, h4, h5, h6, h7, h8, h9, h10, h11, h12, h13, h14, h15, h16, h17, h18, h19, h20, h21, h22, h23⟩ := h
  refine ⟨hp, fun _ => hb, ?_, ?_, ?_, ?_, fun _ => h8, fun _ => h6, ?_, ?_, ?_, ?_, ?_⟩
  · simp [h1, h23, lutSize]
  · simp [h23]
  · simp [h22]
  · simp [h2]
  · rw [h16]; exact keyStore_empty_inv
  · rw [h17]; exact keyStore_empty_inv
  · rw [h18]; exact buffer_empty_inv _
  · rw [h19]; exact buffer_empty_inv _
  · rw [h20]; exact buffer_empty_inv _

/-- Reset (R53, R260, R261). -/
theorem resetBlock_inv (s) (h : State.Inv s) : s.resetBlock.Inv :=
  blockAtReset_inv _ h.params_wf (resetBlock_blockAtReset s)

theorem assertReset_inv (s) (h : State.Inv s) : s.assertReset.Inv :=
  blockAtReset_inv _ h.params_wf (assertReset_blockAtReset s)

theorem releaseReset_inv (s) (h : State.Inv s) : s.releaseReset.Inv := by
  unfold State.releaseReset
  split
  · exact blockAtReset_inv _ h.params_wf (resetBlock_blockAtReset s)
  · exact h

/-- The keystream port (R156). -/
theorem supplierOnly_inv (s t) (h : State.Inv s) (hs : s.SupplierOnly t) : t.Inv := by
  rw [hs.eq]; exact { h with }

end Sys2Proof.Machine
end

