-- ==== Sys2Proof/Laws/Keystream.lean ====
section
/-! SUPPORT. What the keystream requests of a tag answer, by the draws (spec/41_keystream.md R156 to R161). -/

namespace Sys2Proof.Machine

/-- KS gives at least as many bytes as the plaintext has (R157). -/
theorem ks_length_ge (s : State) (key iv pt : List Byte) : pt.length ≤ (s.ks key iv pt).length := by
  unfold State.ks
  simp only [List.length_append, List.length_map, List.length_range]
  omega

@[simp] theorem prgPt_length (len : Nat) : (prgPt len).length = len := by simp [prgPt]

/-- The state after the requests `qs` have been issued, one draw taken for each. -/
def State.afterRequests (s : State) (qs : List KsRequest) : State :=
  { s with
    requests := s.requests ++ qs, draws := s.draws.drop qs.length,
    drawn := s.drawn + (qs.length - s.draws.length) }

@[simp] theorem afterRequests_nil (s : State) : s.afterRequests [] = s := by simp [State.afterRequests]

/-- The draw that decides the next request is the one after those already taken. -/
theorem draw_afterRequests (s : State) (qs : List KsRequest) (k : Nat) :
    (s.afterRequests qs).draw k = s.draw (qs.length + k) := by
  unfold State.draw State.afterRequests
  simp only [List.getElem?_drop, List.length_drop]
  cases h : s.draws[qs.length + k]? with
  | some d => rfl
  | none =>
    simp only []
    congr 1
    simp at h
    omega

/-- A request after the requests `qs` (R155, R156). -/
theorem ksQuery_afterRequests (s : State) (qs : List KsRequest) (q : KsRequest) :
    (s.afterRequests qs).ksQuery q =
      (if s.draw qs.length then none else some (s.ks q.key q.iv q.pt), s.afterRequests (qs ++ [q])) := by
  apply Prod.ext
  · rw [ksQuery_fst, draw_afterRequests]; rfl
  · rw [ksQuery_snd]
    simp only [State.afterRequests, List.append_assoc, List.drop_drop, List.length_append, List.length_singleton,
      List.length_drop]
    congr 1
    omega

/-- The PRF requests, all answered Ok (R158). -/
theorem queryPrfs_ok (s : State) (left : Nat) :
    ∀ (j : Nat) (qs : List KsRequest), (∀ i, i < left → s.draw (qs.length + i) = false) →
      State.queryPrfs left j (s.afterRequests qs) =
        (some ((List.range' j left).map (fun j =>
            (s.ks s.k2.bytes.toList s.ivBytes (prfPt s.idr (BitVec.ofNat 16 j))).headD 0#8)),
          s.afterRequests (qs ++ (List.range' j left).map s.prfRequest)) := by
  induction left with
  | zero => intro j qs _; simp [State.queryPrfs]
  | succ left ih =>
    intro j qs h
    have h0 : s.draw qs.length = false := h 0 (by omega)
    have hrest : ∀ i, i < left → s.draw ((qs ++ [s.prfRequest j]).length + i) = false := by
      intro i hi
      have := h (i + 1) (by omega)
      rwa [show (qs ++ [s.prfRequest j]).length + i = qs.length + (i + 1) by simp; omega]
    have e : (s.afterRequests qs).prfRequest j = s.prfRequest j := rfl
    simp only [State.queryPrfs]
    rw [ksQuery_afterRequests, h0, e]
    simp only [Bool.false_eq_true, if_false]
    rw [ih (j + 1) (qs ++ [s.prfRequest j]) hrest]
    simp [List.range'_succ, State.prfRequest]

/-- The PRF requests, the one at place `k` the first answered Fail: none after it is issued (R159). -/
theorem queryPrfs_fail (s : State) (left : Nat) :
    ∀ (j : Nat) (qs : List KsRequest) (k : Nat), k < left → (∀ i, i < k → s.draw (qs.length + i) = false) →
      s.draw (qs.length + k) = true →
      State.queryPrfs left j (s.afterRequests qs) =
        (none, s.afterRequests (qs ++ (List.range' j (k + 1)).map s.prfRequest)) := by
  induction left with
  | zero => intro j qs k h; omega
  | succ left ih =>
    intro j qs k hk h hf
    have e : (s.afterRequests qs).prfRequest j = s.prfRequest j := rfl
    simp only [State.queryPrfs]
    rw [ksQuery_afterRequests, e]
    cases k with
    | zero =>
      have hf' : s.draw qs.length = true := hf
      rw [hf']; simp
    | succ k =>
      have h0 : s.draw qs.length = false := h 0 (by omega)
      have len : ∀ i, (qs ++ [s.prfRequest j]).length + i = qs.length + (i + 1) := by intro i; simp; omega
      rw [h0]
      simp only [Bool.false_eq_true, if_false]
      rw [ih (j + 1) (qs ++ [s.prfRequest j]) k (by omega) (fun i hi => by rw [len]; exact h (i + 1) (by omega))
        (by rw [len]; exact hf)]
      simp [List.range'_succ]

theorem tagRequests_eq (s : State) :
    s.tagRequests = s.prgRequest :: (List.range' 0 s.m.toNat).map s.prfRequest := by
  rw [← List.range_eq_range']; rfl

@[simp] theorem tagRequests_length (s : State) : s.tagRequests.length = s.m.toNat + 1 := by
  simp [State.tagRequests]

/-- The keystream of a tag, every request answered Ok (R158, R161). -/
theorem queryKeystream_ok (s : State) (h : ∀ k, k ≤ s.m.toNat → s.draw k = false) :
    s.queryKeystream =
      (some ((s.ks s.k1.bytes.toList s.ivBytes (prgPt s.vecLen)).take s.vecLen,
          (List.range' 0 s.m.toNat).map (fun j =>
            (s.ks s.k2.bytes.toList s.ivBytes (prfPt s.idr (BitVec.ofNat 16 j))).headD 0#8)),
        s.afterRequests s.tagRequests) := by
  have h0 := ksQuery_afterRequests s [] s.prgRequest
  rw [afterRequests_nil, List.length_nil, h 0 (by omega)] at h0
  unfold State.queryKeystream
  rw [h0]
  simp only [List.nil_append, Bool.false_eq_true, if_false]
  rw [queryPrfs_ok s s.m.toNat 0 [s.prgRequest] (fun i hi => h _ (by simp; omega)), tagRequests_eq]
  rfl

/-- The keystream of a tag, the request at place `k` the first answered Fail (R159, R161). -/
theorem queryKeystream_fail (s : State) (k : Nat) (hk : k ≤ s.m.toNat) (h : ∀ j, j < k → s.draw j = false)
    (hf : s.draw k = true) : s.queryKeystream = (none, s.afterRequests (s.tagRequests.take (k + 1))) := by
  have h0 := ksQuery_afterRequests s [] s.prgRequest
  rw [afterRequests_nil, List.length_nil] at h0
  unfold State.queryKeystream
  rw [h0, tagRequests_eq]
  cases k with
  | zero => simp [hf]
  | succ k =>
    rw [h 0 (by omega)]
    simp only [List.nil_append, Bool.false_eq_true, if_false]
    rw [queryPrfs_fail s s.m.toNat 0 [s.prgRequest] k (by omega)
      (fun i hi => h _ (by simp; omega)) (by rw [List.length_singleton, Nat.add_comm]; exact hf)]
    have htake : (List.range' 0 s.m.toNat).take (k + 1) = List.range' 0 (k + 1) := by
      apply List.ext_getElem <;> (simp; try omega)
    simp [← List.map_take, htake]

end Sys2Proof.Machine
end

