-- ==== Sys2Proof/Laws/PerInstr.lean ====
section
/-! SUPPORT. The fields of an encoded command word (spec/30_encoding.md R101, R103), command by command. -/

namespace Sys2Proof

/-- Bit `j` of a command word, field by field. -/
theorem getLsbD_commandWord (o a b : Byte) (j : Nat) (hj : j < 32) :
    (commandWord o a b).getLsbD j =
      if j < 8 then o.getLsbD j
      else if j < 16 then a.getLsbD (j - 8)
      else if j < 24 then b.getLsbD (j - 16)
      else false := by
  have out : ∀ (x : Byte) (k : Nat), 8 ≤ k → x.getLsbD k = false := fun x k hk => BitVec.getLsbD_of_ge x k hk
  simp only [commandWord, BitVec.getLsbD_or, BitVec.getLsbD_shiftLeft, BitVec.getLsbD_setWidth]
  by_cases h1 : j < 8
  · simp [h1, show j < 16 by omega, hj]
  · by_cases h2 : j < 16
    · simp [h1, h2, hj, show j - 8 < 32 by omega, out o j (by omega)]
    · by_cases h3 : j < 24
      · simp [h1, h2, h3, hj, show j - 16 < 32 by omega, out o j (by omega), out a (j - 8) (by omega)]
      · simp [h1, h2, h3, out o j (by omega), out a (j - 8) (by omega), out b (j - 16) (by omega)]

@[simp] theorem opc_commandWord (o a b : Byte) : opc (commandWord o a b) = o := by
  apply BitVec.eq_of_getLsbD_eq
  intro i hi
  simp [opc, hi, getLsbD_commandWord o a b i (by omega)]

@[simp] theorem opa_commandWord (o a b : Byte) : opa (commandWord o a b) = a := by
  apply BitVec.eq_of_getLsbD_eq
  intro i hi
  simp [opa, hi, getLsbD_commandWord o a b (8 + i) (by omega), show 8 + i < 16 by omega]

@[simp] theorem opb_commandWord (o a b : Byte) : opb (commandWord o a b) = b := by
  apply BitVec.eq_of_getLsbD_eq
  intro i hi
  simp [opb, hi, getLsbD_commandWord o a b (16 + i) (by omega), show 16 + i < 24 by omega,
    show ¬ 16 + i < 8 by omega]

@[simp] theorem rsv_commandWord (o a b : Byte) : rsv (commandWord o a b) = 0#8 := by
  apply BitVec.eq_of_getLsbD_eq
  intro i hi
  simp [rsv, getLsbD_commandWord o a b (24 + i) (by omega), show ¬ 24 + i < 8 by omega,
    show ¬ 24 + i < 16 by omega]

namespace Laws.EncodingFields

/-- The opcode byte of a command (R103). -/
def opcodeByte : Instr → Byte
  | .nop => 0x00#8
  | .mul _ _ => 0x01#8
  | .mac => 0x02#8
  | .verify _ => 0x03#8
  | .combine => 0x04#8
  | .clry => 0x10#8
  | .clrc => 0x11#8
  | .clrkey => 0x12#8

/-- The word of a command carries its opcode in OPC and 0 in RSV (R101, R103). -/
def Statement (i : Instr) : Prop := opc (encode i) = opcodeByte i ∧ rsv (encode i) = 0#8

theorem nop : Statement .nop := by simp [Statement, encode, opcodeByte]
theorem mul (a b : Byte) : Statement (.mul a b) := by simp [Statement, encode, opcodeByte]
theorem mac : Statement .mac := by simp [Statement, encode, opcodeByte]
theorem verify (t : Byte) : Statement (.verify t) := by simp [Statement, encode, opcodeByte]
theorem combine : Statement .combine := by simp [Statement, encode, opcodeByte]
theorem clry : Statement .clry := by simp [Statement, encode, opcodeByte]
theorem clrc : Statement .clrc := by simp [Statement, encode, opcodeByte]
theorem clrkey : Statement .clrkey := by simp [Statement, encode, opcodeByte]

end Laws.EncodingFields

end Sys2Proof
end

