-- ==== Sys2Proof/Tests/Slice0.lean ====
section
/-! SUPPORT. Tests of the model against the vectors of spec/95_test_vectors.md, and a witness for the hypotheses of
every obligation that has some. -/

namespace Sys2Proof.Tests

open Sys2Proof Sys2Proof.Machine

/-! ## WellFormed: each check refuses an ill-formed term -/

theorem test_wf_arity : AsmLine.arityOk ⟨.mul, [0x80]⟩ = false ∧ AsmLine.wellFormed ⟨.nop, [0]⟩ = false := by decide
theorem test_wf_range : AsmLine.rangeOk ⟨.verify, [256]⟩ = false ∧ AsmLine.wellFormed ⟨.verify, [256]⟩ = false := by decide
theorem test_wf_line : AsmLine.wellFormed ⟨.mul, [255, 0]⟩ = true := by decide
theorem test_wf_base : Params.baseOk ⟨0x1080, 64, 16⟩ = false ∧ Params.wellFormed ⟨0x1080, 64, 16⟩ = false := by decide
theorem test_wf_vmax : Params.vmaxOk ⟨0, 0, 1⟩ = false ∧ Params.vmaxOk ⟨0, 131071, 1⟩ = false := by decide
theorem test_wf_cmax : Params.cmaxOk ⟨0, 1, 0⟩ = false ∧ Params.cmaxOk ⟨0, 1, 65536⟩ = false := by decide
theorem test_wf_params : Params.wellFormed ⟨0x100, 131070, 65535⟩ = true := by decide

/-! ## Decoding: words written out from R101 and R103, and V80 -/

theorem test_decode_nop : decode 0b00000000_00000000_00000000_00000000#32 = .ok .nop := rfl
theorem test_decode_mul : decode 0b00000000_00000010_10000000_00000001#32 = .ok (.mul 0x80#8 0x02#8) := rfl
theorem test_decode_mac : decode 0b00000000_00000000_00000000_00000010#32 = .ok .mac := rfl
theorem test_decode_verify : decode 0b00000000_00000000_11111111_00000011#32 = .ok (.verify 0xFF#8) := rfl
theorem test_decode_combine : decode 0b00000000_00000000_00000000_00000100#32 = .ok .combine := rfl
theorem test_decode_clry : decode 0b00000000_00000000_00000000_00010000#32 = .ok .clry := rfl
theorem test_decode_clrc : decode 0b00000000_00000000_00000000_00010001#32 = .ok .clrc := rfl
theorem test_decode_clrkey : decode 0b00000000_00000000_00000000_00010010#32 = .ok .clrkey := rfl
theorem test_decode_reserved :
    [0x00000100#32, 0xFF000001#32, 0x00000202#32, 0x00FF0003#32, 0x80000004#32, 0x00010011#32].all
      (fun w => (decode w).toOption.isNone && opcAssigned w) = true := by decide
theorem test_decode_unassigned :
    [0x00000005#32, 0x0000000F#32, 0x00000013#32, 0x000000FF#32].all
      (fun w => (decode w).toOption.isNone && !opcAssigned w) = true := by decide
theorem test_decodeTableWord : decodeTableWord 32 0x00835701 = some (.mul 0x57#8 0x83#8) := by decide

/-! ## The states the tests start from: section 0 of spec/95, its default operands -/

/-- Reset, then the table complete: VMAX = 64, CMAX = 16. -/
def ready : State := { State.reset with params := ⟨0x1000, 64, 16⟩, ready := true, lutWritten := 65536 }

/-- A full key of the bytes b, b + 1, ..., b + 15. -/
def fullKey (b : Byte) : KeyStore := ⟨Vector.ofFn (fun i => b + BitVec.ofNat 8 i.val), 16, false⟩

def iv : List Byte := (List.range 16).map (fun i => BitVec.ofNat 8 (0xA0 + i))

/-- The supplier of V20 and P2: r = 3A 91 07 C4 5E, f = B2, both requests Ok. -/
def v20Cipher : List CipherEntry :=
  [⟨(fullKey 0x00#8).bytes.toList, iv, [0, 1, 2, 3, 4], [0x3A, 0x91, 0x07, 0xC4, 0x5E]⟩,
    ⟨(fullKey 0x10#8).bytes.toList, iv, [7, 0, 0, 0], [0xB2]⟩]

/-- The operands of V20. -/
def v20 : State :=
  { ready with
    k1 := fullKey 0x00#8, k2 := fullKey 0x10#8, idr := 7#16, n := 4#16, m := 1#16,
    iv0 := 0xA3A2A1A0#32, iv1 := 0xA7A6A5A4#32, iv2 := 0xABAAA9A8#32, iv3 := 0xAFAEADAC#32,
    ybuf := ⟨[0x01, 0x02, 0x03, 0x04, 0x01], false⟩, ra := true, cipher := v20Cipher, draws := [false, false] }

/-- The operands of V30. -/
def v30 : State := { ready with tbuf := ⟨[0xB1, 0x82], false⟩, abuf := ⟨[0x03, 0x1F], false⟩, ra := true }

/-- What a host reads after the command word `w` completes: STATUS, RESULT and the register at `off`. -/
def run (s : State) (w off : Nat) : Option (Word × Word × Word) :=
  match step (s.withFetchWord 32 w) with
  | .next t => some (t.regRead 0x00, t.regRead 0x0C, t.regRead off)
  | .fault _ => none
  | .refused _ => none

/-- The state a step gives, the state itself where it gives none. -/
def next (s : State) : State :=
  match step s with
  | .next t => t
  | .fault _ => s
  | .refused _ => s

/-! ## One step of each command -/

/-- V2, S1. -/
theorem test_mul_reduction : run ready 0x00028001 0x08 = some (0x0D#32, 0x1B#32, 0#32) := by decide
/-- V2. -/
theorem test_mul_max : run ready 0x00FFFF01 0x08 = some (0x0D#32, 0x13#32, 0#32) := by decide
/-- V20. -/
theorem test_mac : run v20 0x00000002 0x38 = some (0x0D#32, 0xDB#32, 0x00000005#32) := by decide +kernel
/-- V40. -/
theorem test_verify_match : run v20 0x0000DB03 0x30 = some (0x0D#32, 1#32, 0x1010#32) := by decide +kernel
/-- V40. -/
theorem test_verify_mismatch : run v20 0x0000DA03 0x30 = some (0x0D#32, 0#32, 0x1010#32) := by decide +kernel
/-- V30. -/
theorem test_combine : run v30 0x00000004 0x44 = some (0x0D#32, 0xEF#32, 2#32) := by decide
/-- V37: the capacity check comes before the length check. -/
theorem test_combine_overflow :
    run { v30 with abuf := ⟨[0x03, 0x1F, 0x01], true⟩ } 0x00000004 0x48 = some (0x505#32, 0#32, 0x80000003#32) := by
  decide
/-- V71. -/
theorem test_nop_clears_error :
    run { ready with err := .vectorLengthMismatch, done := true } 0x00000000 0x08 = some (0x0D#32, 0#32, 0#32) := by decide
/-- V72, with the overflow flag. -/
theorem test_clry : run { v20 with ybuf := ⟨[1, 2], true⟩ } 0x00000010 0x38 = some (0x0D#32, 0#32, 0#32) := by decide
/-- V73. -/
theorem test_clrc : run { v30 with tbuf := ⟨[1, 2, 3], false⟩ } 0x00000011 0x44 = some (0x0D#32, 0#32, 0#32) := by decide
/-- V73, the other buffer. -/
theorem test_clrc_alphas : run v30 0x00000011 0x48 = some (0x0D#32, 0#32, 0#32) := by decide
/-- V74. -/
theorem test_clrkey : run v20 0x00000012 0x30 = some (0x0D#32, 0#32, 0#32) := by decide
/-- V75. -/
theorem test_clry_not_ready : run { ready with ready := false } 0x00000010 0x38 = some (0x0C#32, 0#32, 0#32) := by decide
/-- V68: ILLEGAL_COMMAND before NOT_READY. -/
theorem test_illegal_first : run { ready with ready := false } 0x00000102 0x08 = some (0x704#32, 0#32, 0#32) := by decide
/-- V12 and V20: the requests, in order. -/
theorem test_mac_requests :
    (next (v20.withFetchWord 32 2)).requests =
      [⟨.prg, (fullKey 0x00#8).bytes.toList, iv, [0, 1, 2, 3, 4], 5⟩,
        ⟨.prf, (fullKey 0x10#8).bytes.toList, iv, [7, 0, 0, 0], 1⟩] := by decide +kernel

/-! ## Registers -/

/-- V87. -/
theorem test_status_w1c :
    ({ ready with done := true, rvalid := true, lost := true }.regWrite 0x00 0xFFFFFFFF#32).regRead 0x00 = 0x09#32 := by
  decide
/-- V86. -/
theorem test_push_low_byte : (ready.regWrite 0x34 0x00001234#32).ybuf = ⟨[0x34#8], false⟩ := by decide
/-- V86. -/
theorem test_idr_low_half : (ready.regWrite 0x10 0x12345678#32).regRead 0x10 = 0x5678#32 := by decide
/-- R108's `setnm 4, 1` as P2 shows it. -/
theorem test_setnm : setnm 0x1000 4#16 1#16 = [.wr 0x1014 4 0x00010004#32] := by decide
/-- P5, schedule A: a push while BUSY = 1 is dropped and sets LOST. -/
theorem test_push_while_busy :
    ((ready.accept 4#32).regWrite 0x3C 0x55#32).regRead 0x44 = 0#32 ∧
      ((ready.accept 4#32).regWrite 0x3C 0x55#32).lost = true := by decide
/-- V89: READY is sampled at acceptance. -/
theorem test_ready_sampled :
    (next { State.accept 0x00028001#32 { ready with ready := false } with ready := true }).regRead 0x00 = 0x805#32 := by
  decide

/-! ## Witnesses: a state and operands that meet the hypotheses of each obligation that has some -/

/-- With the reset input released nothing is asked of the block. -/
theorem released {b : Bool} {P : Prop} (h : b = false) (ht : b = true) : P := absurd ht (by simp [h])

theorem ready_inv : ready.Inv := by
  refine ⟨by decide, released rfl, by decide, by decide, by decide, by decide, by decide, by decide, ?_, ?_, ?_, ?_, ?_⟩
  · exact keyStore_empty_inv
  · exact keyStore_empty_inv
  all_goals exact buffer_empty_inv _

theorem fullKey_inv (b : Byte) : (fullKey b).Inv :=
  ⟨Nat.le_refl 16, fun h => absurd h Bool.false_ne_true, fun _ h hc => absurd h (Nat.not_lt.mpr hc)⟩

theorem v20_inv : v20.Inv :=
  { ready_inv with
    reset_held := released rfl, ra_ready := fun _ => rfl, k1_inv := fullKey_inv _, k2_inv := fullKey_inv _,
    ybuf_inv := ⟨by decide, by decide⟩ }

theorem v30_inv : v30.Inv :=
  { ready_inv with
    reset_held := released rfl, ra_ready := fun _ => rfl, tbuf_inv := ⟨by decide, by decide⟩,
    abuf_inv := ⟨by decide, by decide⟩ }

theorem v20_tagInputsOk : v20.TagInputsOk :=
  ⟨by decide, by decide, by decide, by decide, by decide, by decide, by decide⟩

/-- One command in flight, the engine's turn. -/
def busyMul : State := ready.accept 0x00028001#32

theorem busyMul_inv : busyMul.Inv := accept_inv _ _ ready_inv rfl

/-- V90: V20's block with reset asserted, a host write of CTRL to come, then a turn of the engine and the release. -/
def held : State := { State.assertReset v20 with program := [.wr 0x1004 4 1#32], turns := [.host, .engine, .releaseReset] }

theorem witness_DecodeThenEncode : decode 0x00028001#32 = .ok (.mul 0x80#8 0x02#8) := rfl
theorem witness_AssemblerForms :
    (assemble ⟨.mul, [255, 0]⟩).map encode = some 0x0000FF01#32 ∧ assemble ⟨.mul, [0, 256]⟩ = none ∧
      (assemble ⟨.verify, [255]⟩).map encode = some 0x0000FF03#32 ∧ assemble ⟨.verify, [256]⟩ = none := by decide
theorem witness_CommandAcceptance : ready.phase = .idle := rfl
theorem witness_StepRunsDecodedCommand :
    busyMul.resetIn = false ∧ busyMul.phase = .busy ∧ busyMul.nextTurn = .engine ∧
      decode busyMul.cmdl = .ok (.mul 0x80#8 0x02#8) := ⟨rfl, rfl, rfl, rfl⟩
theorem witness_PlacedWordRunsNext :
    (0xFFFF01 : Nat) < 2 ^ 32 ∧ decode (BitVec.ofNat 32 0xFFFF01) = .ok (.mul 0xFF#8 0xFF#8) := ⟨by decide, rfl⟩
theorem witness_IllegalWordCompletes :
    (ready.accept 0x100#32).resetIn = false ∧ (ready.accept 0x100#32).phase = .busy ∧
      (ready.accept 0x100#32).nextTurn = .engine ∧
      decode (ready.accept 0x100#32).cmdl = .error .reservedBitsSet := ⟨rfl, rfl, rfl, rfl⟩

/-- One witness for each clause: a word of each kind, what its step gives as ERR. -/
theorem witness_CommandErrorCodes :
    ∀ p ∈ [(0x00#32, ErrCode.noError), (0x10#32, .noError), (0x110#32, .illegalCommand), (0x00FFFF01#32, .noError),
        (0x02#32, .invalidKeyLength), (0xDB03#32, .invalidKeyLength), (0x04#32, .noError), (0xFF#32, .illegalCommand)],
      (ready.accept p.1).resetIn = false ∧ (ready.accept p.1).phase = .busy ∧ (ready.accept p.1).nextTurn = .engine ∧
        (next (ready.accept p.1)).err = p.2 := by
  decide

theorem witness_ErrorChangesNothingElse :
    (ready.accept 2#32).phase = .busy ∧ (ready.accept 2#32).nextTurn = .engine ∧
      ∃ t, step (ready.accept 2#32) = .next t ∧ t.err ≠ .noError := ⟨rfl, rfl, _, rfl, by decide⟩
theorem witness_CommandFrame : ∃ t, exec .clry v20 = .next t ∧ t.k1 = v20.k1 := ⟨_, rfl, rfl⟩
theorem witness_GmulFieldLaws : (0x53#8 : Byte) ≠ 0#8 ∧ (0xCA#8 : Byte) ≠ 0#8 ∧ gmul 0x53#8 0xCA#8 = 1#8 := by decide
theorem witness_TableIsGmulOnceReady :
    ready.Inv ∧ ready.ready = true ∧ (∃ t, step ready = .next t) ∧ ready.nextTurn ≠ .assertReset :=
  ⟨ready_inv, rfl, ⟨_, rfl⟩, by decide⟩

/-- A table one entry short. -/
def almost : State := { ready with ready := false, lutWritten := 65535, turns := [.initialiser 1] }

theorem almost_inv : almost.Inv :=
  { ready_inv with reset_held := released rfl, ready_iff := by decide, written_le := by decide, ra_ready := by decide }

theorem witness_InitialiserBuildsTable :
    almost.resetIn = false ∧ State.Inv { held with turns := [.initialiser 1] } ∧ held.resetIn = true ∧
    (almost.Inv ∧ almost.nextTurn = .initialiser 1 ∧ (next almost).ready = true) ∧
      ({ almost with turns := [.initialiser 0] }.Inv ∧ (next { almost with turns := [.initialiser 0] }).ready = false) :=
  ⟨rfl, { assertReset_inv _ v20_inv with }, rfl, ⟨almost_inv, rfl, by decide⟩,
    { almost_inv with reset_held := released rfl }, by decide⟩
theorem witness_OnlyInitialiserChangesTable :
    ∃ t, step almost = .next t ∧ t.ready ≠ almost.ready ∧ t.lutWritten ≠ almost.lutWritten :=
  ⟨_, rfl, by decide, by decide⟩
theorem witness_MulCompletes : v20.Inv ∧ v20.ra = true := ⟨v20_inv, rfl⟩
/-- The wrap at byte 256 (V10), the last index (V11) and the last identifier. -/
theorem witness_KeystreamPlaintexts :
    (prgPt 258)[256]? = some 0#8 ∧ (257 : Nat) < 258 ∧ prfPt 100#16 65534#16 = [0x64, 0x00, 0xFE, 0xFF] ∧
      (100#16 : Half).toNat ≤ 100 ∧ 65534 < (0xFFFF#16 : Half).toNat := by decide +kernel
theorem witness_IvByteOrder : v20.phase = .idle ∧ v20.ivBytes = iv ∧ (3 : Nat) < 4 := by decide
theorem witness_MacCompletes :
    v20.Inv ∧ v20.ra = true ∧ v20.TagInputsOk ∧ ∀ k, k ≤ v20.m.toNat → v20.draw k = false := by
  refine ⟨v20_inv, rfl, v20_tagInputsOk, fun k hk => ?_⟩
  have : k = 0 ∨ k = 1 := by have : v20.m.toNat = 1 := rfl; omega
  rcases this with rfl | rfl <;> rfl
theorem witness_VerifyCompletes :
    (v20.Inv ∧ v20.ra = true ∧ v20.TagInputsOk ∧ ∀ k, k ≤ v20.m.toNat → v20.draw k = false) ∧ v20.tagOf = 0xDB#8 :=
  ⟨witness_MacCompletes, by decide +kernel⟩
/-- The first request fails (V69), and the last one. -/
theorem witness_FirstFailEndsTheCommand :
    v20.ra = true ∧ v20.TagInputsOk ∧ State.draw { v20 with draws := [true] } 0 = true ∧
      (1 ≤ v20.m.toNat ∧ (∀ j, j < 1 → State.draw { v20 with draws := [false, true] } j = false) ∧
        State.draw { v20 with draws := [false, true] } 1 = true) := by
  refine ⟨rfl, v20_tagInputsOk, rfl, by decide, fun j hj => ?_, rfl⟩
  obtain rfl : j = 0 := by omega
  rfl

/-- V50 to V67, one state for each clause at the boundary: the operands changed and the code they give. -/
theorem witness_TagInputChecks :
    ∀ p ∈ [({ v20 with ra := false }, ErrCode.notReady),
        ({ v20 with k1 := { fullKey 0x00#8 with cnt := 15 } }, .invalidKeyLength),
        ({ v20 with k2 := { fullKey 0x10#8 with ovf := true } }, .invalidKeyLength),
        ({ v20 with idr := 0#16 }, .invalidIdentifier), ({ v20 with idr := 101#16 }, .invalidIdentifier),
        ({ v20 with n := 0#16 }, .invalidParameter), ({ v20 with m := 0#16 }, .invalidParameter),
        ({ v20 with params := ⟨0, 4, 1⟩ }, .capacityExceeded), ({ v20 with n := 0xFFFF#16 }, .capacityExceeded),
        ({ v20 with n := 5#16 }, .vectorLengthMismatch),
        ({ v20 with params := ⟨0, 5, 1⟩, ybuf := { v20.ybuf with ovf := true } }, .vectorLengthMismatch)],
      (State.completeTag id p.1).err = p.2 := by decide

/-- V20's operands after another run, in another state of the supplier's side. -/
def v20Again : State := { v20 with requests := v20.tagRequests, draws := [false, false, true], lost := true }

theorem v20Again_inv : v20Again.Inv := { v20_inv with reset_held := released rfl }

theorem witness_MacIsDeterministic :
    v20.Inv ∧ v20Again.Inv ∧ v20.SameContext v20Again ∧ v20.ybuf = v20Again.ybuf ∧
      (v20.completeTag id).rvalid = true ∧ (v20Again.completeTag id).rvalid = true :=
  ⟨v20_inv, v20Again_inv, ⟨rfl, rfl, rfl, rfl, rfl, rfl, rfl, rfl, rfl, rfl⟩, rfl, by decide +kernel, by decide +kernel⟩

def r20 : List Byte := [0x3A, 0x91, 0x07, 0xC4, 0x5E]
def y20 : List Byte := [0x01, 0x02, 0x03, 0x04, 0x01]

/-- V20 and V21; the vectors have the lengths the three fold statements ask for. -/
theorem witness_FoldIsLinear : r20.length = 4 + 1 ∧ y20.length = 4 + 1 ∧ tagfold gmul r20 [0xB2] y20 4 = 0xDB#8 := by decide
theorem witness_FoldByWeights : r20.length = 4 + 1 ∧ [0xB2#8].length = 1 ∧ y20.length = 4 + 1 := by decide
/-- V21 at coordinate 0, V24 at the last coordinate (weight 0). -/
theorem witness_FoldDetectsMutation :
    ((∀ i, i ≠ 0 → y20.getD i 0#8 = (0x77#8 :: y20.tail).getD i 0#8) ∧
        tagfold gmul r20 [0xB2] (0x77#8 :: y20.tail) 4 = 0xC9#8) ∧
      tagfold gmul [0x3A, 0x91, 0x07, 0xC4, 0xB2] [0xB2] y20 4 = 0x37#8 ∧
      tagfold gmul [0x3A, 0x91, 0x07, 0xC4, 0xB2] [0xB2] [0x01, 0x02, 0x03, 0x04, 0x09] 4 = 0x37#8 := by
  refine ⟨⟨fun i hi => ?_, by decide⟩, by decide, by decide⟩
  cases i with
  | zero => exact absurd rfl hi
  | succ i => rfl

/-- V21: V20 with y[0] changed. -/
def v21 : State := { v20 with ybuf := ⟨[0x77, 0x02, 0x03, 0x04, 0x01], false⟩ }

theorem v21_inv : v21.Inv := { v20_inv with reset_held := released rfl, ybuf_inv := ⟨by decide, by decide⟩ }

theorem witness_VerifyAgreesWithMac :
    v20.Inv ∧ v21.Inv ∧ v20.SameContext v21 ∧ (v20.completeTag id).rvalid = true ∧
      (v20.completeTag id).result = 0xDB#8 ∧ (∃ t, exec (.verify 0xDB#8) v21 = .next t ∧ t.rvalid = true ∧ t.result = 0#8) ∧
      (0 < v20.n.toNat + v20.m.toNat ∧ (∀ i, i ≠ 0 → v20.yAt i = v21.yAt i) ∧ v20.yAt 0 ≠ v21.yAt 0) := by
  refine ⟨v20_inv, v21_inv, ⟨rfl, rfl, rfl, rfl, rfl, rfl, rfl, rfl, rfl, rfl⟩, by decide +kernel, by decide +kernel,
    ⟨_, rfl, by decide +kernel, by decide +kernel⟩, by decide, fun i hi => ?_, by decide⟩
  cases i with
  | zero => exact absurd rfl hi
  | succ i => rfl
/-- V40 both ways; then V67 (readiness), V42 (a check, at the boundary 0) and the last request of V20 failing. -/
theorem witness_VerifyErrorIsNotMismatch :
    ((v20.Inv ∧ v20.ra = true ∧ v20.TagInputsOk ∧ ∀ k, k ≤ v20.m.toNat → v20.draw k = false) ∧
        v20.tagOf = 0xDB#8 ∧ v20.tagOf ≠ 0xDA#8) ∧
      ready.ra = false ∧ ¬ State.TagInputsOk { v20 with idr := 0#16 } ∧
      (1 ≤ v20.m.toNat ∧ State.draw { v20 with draws := [false, true] } 1 = true) :=
  ⟨⟨witness_MacCompletes, by decide +kernel, by decide +kernel⟩, rfl, fun h => absurd h.ident.1 (by decide), by decide, rfl⟩
theorem witness_VerifyExposesOnlyMatch :
    v20.ReadsAlike v21 ∧ (∃ t, exec (.verify 0x00#8) v20 = .next t ∧ t.err = .noError ∧ t.result = 0#8) ∧
      (∃ t, exec (.verify 0x00#8) v21 = .next t ∧ t.err = .noError ∧ t.result = 0#8) :=
  ⟨fun _ _ _ => rfl, ⟨_, rfl, by decide +kernel, by decide +kernel⟩, ⟨_, rfl, by decide +kernel, by decide +kernel⟩⟩

theorem witness_CombineCompletes :
    v30.Inv ∧ v30.ra = true ∧ v30.tbuf.ovf = false ∧ v30.abuf.ovf = false ∧
      v30.tbuf.elems.length = v30.abuf.elems.length := ⟨v30_inv, rfl, rfl, rfl, rfl⟩
/-- V36 and V37. -/
theorem witness_CombineChecks :
    ready.ra = false ∧ v30.ra = true ∧ State.checkCombineInputs { v30 with tbuf := ⟨[1], true⟩ } = some .capacityExceeded ∧
      State.checkCombineInputs { v30 with tbuf := ⟨[1, 2, 3], false⟩ } = some .vectorLengthMismatch := by decide
/-- V32. -/
theorem witness_CombineIdentity :
    State.Inv { v30 with tbuf := ⟨[0xDB], false⟩, abuf := ⟨[0x01], false⟩ } ∧ v30.ra = true :=
  ⟨{ v30_inv with
      reset_held := released rfl, tbuf_inv := ⟨by decide, by decide⟩, abuf_inv := ⟨by decide, by decide⟩ }, rfl⟩
theorem witness_CombineNeedsNoKey :
    v30.Inv ∧ State.Inv { v30 with k1 := fullKey 1#8 } ∧ v30.k1 ≠ fullKey 1#8 ∧ (∃ t, exec .combine v30 = .next t) :=
  ⟨v30_inv, { v30_inv with reset_held := released rfl, k1_inv := fullKey_inv _ }, by decide, ⟨_, rfl⟩⟩

/-- V31: the supplier and the context of three MACs. -/
def v31 (y : List Byte) : State :=
  { v20 with
    m := 2#16, ybuf := ⟨y, false⟩, draws := [false, false, false],
    cipher :=
      [⟨(fullKey 0x00#8).bytes.toList, iv, [0, 1, 2, 3, 4, 5], [0x3A, 0x91, 0x07, 0xC4, 0x5E, 0x6D]⟩,
        ⟨(fullKey 0x10#8).bytes.toList, iv, [7, 0, 0, 0], [0xB2]⟩,
        ⟨(fullKey 0x10#8).bytes.toList, iv, [7, 0, 1, 0], [0x19]⟩] }

def v31y1 : State := v31 [0x10, 0x20, 0x30, 0x40, 0x01, 0x00]
def v31y2 : State := v31 [0x05, 0x06, 0x07, 0x08, 0x00, 0x01]
def v31z : State := v31 [0x53, 0x22, 0x0D, 0x38, 0x03, 0x1F]

def v31Runs : List TagRun := [⟨v31y1, v31y1.completeTag id, 0x03#8⟩, ⟨v31y2, v31y2.completeTag id, 0x1F#8⟩]

theorem v31_inv (y : List Byte) (h : y.length ≤ 64) : (v31 y).Inv :=
  { v20_inv with reset_held := released rfl, ybuf_inv := ⟨h, fun h => absurd h Bool.false_ne_true⟩ }

/-- V31: every hypothesis of the homomorphism, and the tag 0xEF on both sides. -/
theorem witness_CombineHomomorphism :
    (∀ run ∈ v31Runs, run.Ok v31z) ∧ v31z.Inv ∧ (v31z.completeTag id).rvalid = true ∧
      (v31z.completeTag id).result = 0xEF#8 ∧
      (∀ k, k < v31z.n.toNat + v31z.m.toNat →
        v31z.yAt k = xorSum (v31Runs.map (fun run => gmul run.alpha (run.before.yAt k)))) ∧
      v30.Inv ∧ v30.ra = true ∧ v30.tbuf = ⟨v31Runs.map (fun run => run.after.result), false⟩ ∧
      v30.abuf = ⟨v31Runs.map (fun run => run.alpha), false⟩ := by
  refine ⟨?_, v31_inv _ (by decide), by decide +kernel, by decide +kernel, by decide +kernel, v30_inv, rfl,
    by decide +kernel, by decide⟩
  intro run h
  simp only [v31Runs, List.mem_cons, List.not_mem_nil, or_false] at h
  rcases h with rfl | rfl
  · exact ⟨v31_inv _ (by decide), ⟨rfl, rfl, rfl, rfl, rfl, rfl, rfl, rfl, rfl, rfl⟩, rfl, by decide +kernel⟩
  · exact ⟨v31_inv _ (by decide), ⟨rfl, rfl, rfl, rfl, rfl, rfl, rfl, rfl, rfl, rfl⟩, rfl, by decide +kernel⟩

/-- V70: 2 requests when PRF request 0 fails, 3 when PRF request 1 fails; one of the 2 and two of the 3 are PRF requests. -/
theorem witness_FirstFailEndsTheCommand_prf :
    (State.completeTag id { v31y1 with draws := [false, true] }).err = .cryptoFailure ∧
      (State.completeTag id { v31y1 with draws := [false, true] }).requests.map KsRequest.kind = [.prg, .prf] ∧
      (State.completeTag id { v31y1 with draws := [false, false, true] }).err = .cryptoFailure ∧
      (State.completeTag id { v31y1 with draws := [false, false, true] }).requests.map KsRequest.kind =
        [.prg, .prf, .prf] := by decide +kernel

theorem witness_ReadinessTest : ready.ra = false ∧ exec (.mul 1#8 1#8) ready = .next (ready.finishErr .notReady) := ⟨rfl, rfl⟩
theorem witness_GuardedWriteDroppedWhileBusy :
    busyMul.phase = .busy ∧ busyMul.regWrite 0x08 0#32 = { busyMul with lost := true } ∧
      busyMul.regWrite 0x54 1#32 = busyMul ∧ busyMul.regWrite 0xFC 1#32 = busyMul := ⟨rfl, rfl, rfl, rfl⟩
theorem witness_OperandRegisterWrites : ready.phase = .idle ∧ (ready.regWrite 0x24 7#32).regRead 0x24 = 7#32 := by decide
/-- The 16th push (V50's key completed) and the 17th (V51). -/
theorem witness_KeyPush :
    ready.phase = .idle ∧ (KeyStore.push 0x10F#32 { KeyStore.empty with cnt := 15 }).cnt = 16 ∧
      (KeyStore.push 0x10F#32 { KeyStore.empty with cnt := 15 }).bytes[15] = 0x0F#8 ∧
      (KeyStore.push 1#32 (fullKey 0#8)).ovf = true ∧ (KeyStore.push 1#32 (fullKey 0#8)).cnt = 16 := by decide
theorem witness_SixteenPushesLoadTheKey :
    ready.phase = .idle ∧ ready.k1 = ⟨Vector.replicate 16 0#8, 0, false⟩ ∧
      ready.k2 = ⟨Vector.replicate 16 0#8, 0, false⟩ := ⟨rfl, rfl, rfl⟩

/-- An overflowed key, CLRKEY in flight. -/
def overflowed : State := State.accept 0x12#32 { ready with k1 := { fullKey 0#8 with ovf := true } }

theorem witness_KeyOverflowIsSticky :
    (∃ t, step overflowed = .next t ∧ overflowed.k1.ovf = true ∧ t.k1.ovf = false) ∧
      (∃ t, step { overflowed with turns := [.assertReset] } = .next t ∧ t.k1.ovf = false) :=
  ⟨⟨_, rfl, rfl, rfl⟩, ⟨_, rfl, rfl⟩⟩

/-- A buffer one element short of its depth, and a full one. -/
theorem witness_BufferPushes :
    ready.phase = .idle ∧ (Buffer.push 2 7#32 ⟨[1], false⟩) = ⟨[1, 7], false⟩ ∧
      (Buffer.push 2 7#32 ⟨[1, 2], false⟩) = ⟨[1, 2], true⟩ := by decide
theorem witness_CountFieldLayout : v20.Inv ∧ v20.regRead 0x30 = 0x1010#32 ∧ v20.regRead 0x38 = 5#32 :=
  ⟨v20_inv, by decide, by decide⟩
/-- V85. -/
theorem witness_RegisterReads :
    ready.Inv ∧ ready.regRead 0x4C = 0x40#32 ∧ ready.regRead 0x50 = 0x10#32 ∧ ready.regRead 0x54 = 0#32 ∧
      ready.regRead 0xFC = 0#32 := ⟨ready_inv, by decide, by decide, by decide, by decide⟩
theorem witness_SecretsAreNotReadable :
    v20.k1.cnt = (fullKey 9#8).cnt ∧ v20.k1.ovf = (fullKey 9#8).ovf ∧ v20.k1 ≠ fullKey 9#8 ∧
      v20.ybuf.elems.length = v21.ybuf.elems.length ∧ v20.ybuf ≠ v21.ybuf := by decide

/-- The host's turn, with one statement to make. -/
def hostNext (a : HostStmt) : State := { ready with program := [a], turns := [.host] }

/-- The first and the last word slot of the window; a poll that holds and one that does not. -/
theorem witness_HostAccessStep :
    (hostNext (.wr 0x1000 4 4#32)).nextTurn = .host ∧ (0x1000 + 0xFC) % 4 = 0 ∧
      (next (hostNext (.rd 0x10FC 4))).reads = [0#32] ∧ (next (hostNext (.wr 0x1004 4 1#32))).ie = true ∧
      (next (hostNext (.poll 0x1000 4 1#32 1#32))).program = [] ∧
      (next (hostNext (.poll 0x1000 4 2#32 2#32))).program = [.poll 0x1000 4 2#32 2#32] ∧
      held.nextTurn = .host ∧ held.resetIn = true ∧ (next held).ie = false ∧
      (next { held with program := [.rd 0x104C 4] }).reads = [0x40#32] := by decide
/-- A byte access at the first address and a word access at the last. -/
theorem witness_UndefinedAccessRefused :
    step (hostNext (.rd 0x1000 1)) = .refused .undefinedAccess ∧
      step (hostNext (.wr 0x10FF 4 0#32)) = .refused .undefinedAccess ∧
      step (hostNext (.poll 0x1002 4 0#32 0#32)) = .refused .undefinedAccess := ⟨rfl, rfl, rfl⟩
/-- One state for each value of ERR, R231's table written out. -/
theorem witness_StatusFieldLayout :
    [ErrCode.noError, .invalidKeyLength, .invalidIdentifier, .vectorLengthMismatch, .cryptoFailure, .capacityExceeded,
        .invalidParameter, .illegalCommand, .notReady].map (fun e => (State.regRead { ready with err := e } 0x00)) =
      [0x001#32, 0x101#32, 0x201#32, 0x301#32, 0x401#32, 0x501#32, 0x601#32, 0x701#32, 0x801#32] := by decide
theorem witness_AdmittedProgramsAreSafe : (hostNext (.wr 0x10FC 4 0#32)).programAdmitted = true := by decide
theorem test_outside_window : step (hostNext (.rd 0x1100 4)) = .fault .addressOutsideWindow := rfl

/-- V88: the events of IRQ. -/
theorem witness_IrqEvents :
    busyMul.resetIn = false ∧ (next { busyMul with ie := true }).irq = true ∧ (∃ t, step { busyMul with ie := true } = .next t) ∧
      (0x14#32 : Word).getLsbD 2 = true ∧ ready.phase = .idle ∧ (0#32 : Word).getLsbD 0 = false ∧
      State.irq { busyMul with ie := true } = false ∧
      (next { hostNext (.wr 0x1004 4 1#32) with done := true }).irq = true := by
  refine ⟨rfl, by decide, ⟨_, rfl⟩, by decide, rfl, by decide, rfl, by decide⟩
/-- V90. -/
theorem witness_ResetTakesResetValues :
    v20.params.wellFormed = true ∧ State.underReset { busyMul with turns := [.assertReset] } = true ∧
      (next { busyMul with turns := [.assertReset] }).phase = .idle ∧
      (next { busyMul with turns := [.assertReset] }).resetIn = true ∧ held.underReset = true ∧
      (next held).ie = false ∧ (next held).program = [] ∧ (next held).resetIn = true ∧
      (next (next held)).resetIn = true ∧ (next (next (next held))).resetIn = false := by decide
theorem witness_CommandInFlightIsUndisturbed :
    busyMul.resetIn = false ∧ busyMul.phase = .busy ∧ (∃ t, step busyMul = .next t ∧ t.phase = .idle) ∧
      (∃ t, step { busyMul with turns := [.host], program := [.wr 0x1034 4 1#32] } = .next t ∧ t.lost = true) :=
  ⟨rfl, rfl, ⟨_, rfl, rfl⟩, ⟨_, rfl, rfl⟩⟩
theorem witness_LostChangesOnlySo :
    (∃ t, step { busyMul with turns := [.host], program := [.wr 0x1034 4 1#32] } = .next t ∧ t.lost = true) ∧
      (∃ t, step { hostNext (.wr 0x1000 4 0x14#32) with lost := true } = .next t ∧ t.lost = false) :=
  ⟨⟨_, rfl, rfl⟩, ⟨_, rfl, rfl⟩⟩
theorem witness_StepKeepsInv : busyMul.Inv ∧ ∃ t, step busyMul = .next t := ⟨busyMul_inv, ⟨_, rfl⟩⟩

end Sys2Proof.Tests
end

section
/-! PROOFS. The register window: which register an offset names, what a read and a write of it do (spec/10_state.md R32,
R47, R51; spec/20_memory.md R71, R74, R75). -/

namespace Sys2Proof.Machine

/-! ## The register at an offset -/

/-- Distinct registers have distinct offsets (R32). -/
@[simp] theorem regAt_regOffset (r : Reg) : regAt (regOffset r) = some r := by
  cases r <;> rfl

theorem regOffset_le (r : Reg) : regOffset r ≤ 0x50 := by
  cases r <;> decide

/-- The offsets above CMAX's are reserved (R32, R71). -/
theorem regAt_reserved {off : Nat} (h : 0x54 ≤ off) : regAt off = none := by
  refine List.find?_eq_none.mpr fun r _ => ?_
  have hle := regOffset_le r
  simp only [beq_iff_eq]
  omega

/-! ## Reads and writes by register -/

@[simp] theorem regRead_regOffset (s : State) (r : Reg) : s.regRead (regOffset r) = s.readReg r := by
  simp [State.regRead]

theorem regWrite_reserved {off : Nat} (h : 0x54 ≤ off) (v : Word) (s : State) : s.regWrite off v = s := by
  simp [State.regWrite, regAt_reserved h]

/-- A guarded register drops a write while BUSY = 1 and sets LOST (R47). -/
theorem regWrite_guarded_busy {r : Reg} {s : State} (hr : regGuarded r = true) (hs : s.phase = .busy) (v : Word) :
    s.regWrite (regOffset r) v = { s with lost := true } := by
  simp [State.regWrite, State.busy, hr, hs]

/-- A register that is not guarded takes a write whatever BUSY is (R75). -/
theorem regWrite_unguarded {r : Reg} (hr : regGuarded r = false) (v : Word) (s : State) :
    s.regWrite (regOffset r) v = s.writeReg r v := by
  simp [State.regWrite, hr]

/-- While BUSY = 0 every register takes a write (R75). -/
theorem regWrite_idle {s : State} (hs : s.phase = .idle) (r : Reg) (v : Word) :
    s.regWrite (regOffset r) v = s.writeReg r v := by
  simp [State.regWrite, State.busy, hs]

/-! ## The guarded and the read-only registers -/

/-- R47's list. -/
def guardedRegs : List Reg :=
  [.cmd, .idr, .nm, .iv0, .iv1, .iv2, .iv3, .key1Push, .key2Push, .yPush, .tagPush, .alphaPush]

theorem mem_guardedRegs (r : Reg) : r ∈ guardedRegs ↔ regGuarded r = true := by
  cases r <;> decide

/-- The registers of R32 that a host can only read. -/
def readOnlyRegs : List Reg := [.result, .keycnt, .yLen, .tLen, .aLen, .vmax, .cmax]

theorem regGuarded_of_mem_readOnlyRegs {r : Reg} (h : r ∈ readOnlyRegs) : regGuarded r = false := by
  revert r; decide

theorem writeReg_readOnly {r : Reg} (h : r ∈ readOnlyRegs) (v : Word) (s : State) : s.writeReg r v = s := by
  simp only [readOnlyRegs, List.mem_cons, List.not_mem_nil, or_false] at h
  rcases h with rfl | rfl | rfl | rfl | rfl | rfl | rfl <;> rfl

theorem regWrite_readOnly {r : Reg} (h : r ∈ readOnlyRegs) (v : Word) (s : State) :
    s.regWrite (regOffset r) v = s := by
  rw [regWrite_unguarded (regGuarded_of_mem_readOnlyRegs h), writeReg_readOnly h]

/-- Settles O41: R47's and R32's offsets are those of the guarded and of the read-only registers, and each kind of
register has its rule above. -/
theorem guardedWriteDroppedWhileBusy : Obligations.GuardedWriteDroppedWhileBusy := by
  intro s v
  refine ⟨fun hbusy => ?guarded, ?status, ?ctrl, ?readOnly, ?reserved⟩
  case guarded =>
    change ∀ off ∈ guardedRegs.map regOffset, _
    exact List.forall_mem_map.mpr fun r hr => regWrite_guarded_busy ((mem_guardedRegs r).mp hr) hbusy v
  case status => exact regWrite_unguarded (r := .status) rfl v s
  case ctrl => exact regWrite_unguarded (r := .ctrl) rfl v s
  case readOnly =>
    change ∀ off ∈ readOnlyRegs.map regOffset, _
    exact List.forall_mem_map.mpr fun r hr => regWrite_readOnly hr v s
  case reserved => exact fun off hoff _ _ => regWrite_reserved hoff v s

/-! ## The flags as a host reads them -/

@[simp] theorem flagAt_getElem (i : Nat) (f : Bool) {j : Nat} (hj : j < 32) :
    (flagAt i f)[j] = (decide (j = i) && f) := by
  rcases Nat.lt_trichotomy j i with hlt | rfl | hgt
  · simp [flagAt, hlt, hlt.ne]
  · simp [flagAt]
  · have hpos : ¬ j - i = 0 := by omega
    simp [flagAt, hgt.ne', hpos]

/-- DONE is bit 2 of STATUS (R33). -/
theorem statusWord_getLsbD_done (s : State) : s.statusWord.getLsbD 2 = s.done := by
  simp [State.statusWord]

/-- IE is bit 0 of CTRL (R34). -/
theorem ctrlWord_getLsbD_ie (s : State) : s.ctrlWord.getLsbD 0 = s.ie := by
  simp [State.ctrlWord]

/-- Settles O54: the two bits a host reads are the fields that IRQ conjoins, and both are 0 after reset. -/
theorem irqIsDoneAndEnabled : Obligations.IrqIsDoneAndEnabled := by
  refine ⟨fun s => ?_, rfl⟩
  have hdone : (s.regRead 0x00).getLsbD 2 = s.done :=
    (congrArg (·.getLsbD 2) (regRead_regOffset s .status)).trans (statusWord_getLsbD_done s)
  have hie : (s.regRead 0x04).getLsbD 0 = s.ie :=
    (congrArg (·.getLsbD 0) (regRead_regOffset s .ctrl)).trans (ctrlWord_getLsbD_ie s)
  rw [hdone, hie, State.irq]

end Sys2Proof.Machine
end

section
/-! PROOFS. The host's side of the register window: the writes of the operand registers, the pushes into the buffers and
the accesses that are refused (spec/20_memory.md R73, R77, R78, R81). -/

namespace Sys2Proof.Machine

/-! ## The operand registers -/

/-- Bits 15:0 of a word, read back in a register whose other bits are 0 (R37). -/
theorem setWidth_lowHalf (v : Word) : (v.extractLsb' 0 16).setWidth 32 = v &&& 0x0000FFFF#32 := by
  refine BitVec.eq_of_toNat_eq ?_
  have hmask : v.toNat &&& 0xFFFF = v.toNat % 2 ^ 16 := Nat.and_two_pow_sub_one_eq_mod v.toNat 16
  have hfits : v.toNat % 2 ^ 16 < 2 ^ 32 := by omega
  rw [BitVec.toNat_setWidth, BitVec.extractLsb'_toNat, Nat.shiftRight_zero, Nat.mod_eq_of_lt hfits, BitVec.toNat_and]
  exact hmask.symm

/-- The two halves of a word, put back at their places (R38). -/
theorem halves_or (v : Word) :
    (v.extractLsb' 0 16).setWidth 32 ||| ((v.extractLsb' 16 16).setWidth 32 <<< 16) = v := by
  ext i hi
  by_cases hlow : i < 16
  · simp [hlow, BitVec.getLsbD_eq_getElem hi]
  · have hhigh : i - 16 < 16 := by omega
    have hback : 16 + (i - 16) = i := by omega
    simp [hlow, hhigh, hback, BitVec.getLsbD_eq_getElem hi]

/-- What a register reads after a write that it takes (R74, R75). -/
theorem regRead_regWrite_idle {s : State} (hs : s.phase = .idle) (r : Reg) (v : Word) :
    (s.regWrite (regOffset r) v).regRead (regOffset r) = (s.writeReg r v).readReg r := by
  rw [regWrite_idle hs, regRead_regOffset]

/-- The operand registers all of whose 32 bits are stored (R81). -/
def fullWidthRegs : List Reg := [.nm, .iv0, .iv1, .iv2, .iv3]

theorem readReg_writeReg_fullWidth {r : Reg} (hr : r ∈ fullWidthRegs) (v : Word) (s : State) :
    (s.writeReg r v).readReg r = v := by
  simp only [fullWidthRegs, List.mem_cons, List.not_mem_nil, or_false] at hr
  rcases hr with rfl | rfl | rfl | rfl | rfl
  · exact halves_or v
  all_goals rfl

/-- Settles O42: an idle write is the register's own rule, and what is stored reads back by the two facts on halves. -/
theorem operandRegisterWrites : Obligations.OperandRegisterWrites := by
  intro s v hs
  refine ⟨regWrite_idle hs .idr v, regWrite_idle hs .nm v, regWrite_idle hs .iv0 v, regWrite_idle hs .iv1 v,
    regWrite_idle hs .iv2 v, regWrite_idle hs .iv3 v, ?idr, ?fullWidth⟩
  case idr => exact (regRead_regWrite_idle hs .idr v).trans (setWidth_lowHalf v)
  case fullWidth =>
    change ∀ off ∈ fullWidthRegs.map regOffset, _
    exact List.forall_mem_map.mpr fun r hr =>
      (regRead_regWrite_idle hs r v).trans (readReg_writeReg_fullWidth hr v s)

/-! ## The pushes into the buffers -/

theorem buffer_push_of_lt {cap : Nat} {b : Buffer} (h : b.elems.length < cap) (v : Word) :
    b.push cap v = ⟨b.elems ++ [v.extractLsb' 0 8], b.ovf⟩ :=
  if_pos h

theorem buffer_push_of_le {cap : Nat} {b : Buffer} (h : cap ≤ b.elems.length) (v : Word) :
    b.push cap v = ⟨b.elems, true⟩ :=
  if_neg h.not_gt

/-- A push port writes what the push makes of its buffer (R77, R78). -/
theorem regWrite_yPush {s : State} {b : Buffer} (hs : s.phase = .idle) {v : Word}
    (h : s.ybuf.push s.params.vmax v = b) : s.regWrite (regOffset .yPush) v = { s with ybuf := b } :=
  h ▸ regWrite_idle hs .yPush v

theorem regWrite_tagPush {s : State} {b : Buffer} (hs : s.phase = .idle) {v : Word}
    (h : s.tbuf.push s.params.cmax v = b) : s.regWrite (regOffset .tagPush) v = { s with tbuf := b } :=
  h ▸ regWrite_idle hs .tagPush v

theorem regWrite_alphaPush {s : State} {b : Buffer} (hs : s.phase = .idle) {v : Word}
    (h : s.abuf.push s.params.cmax v = b) : s.regWrite (regOffset .alphaPush) v = { s with abuf := b } :=
  h ▸ regWrite_idle hs .alphaPush v

/-- Settles O46: each port's write is the push into its buffer, which has one rule below the capacity and one at it. -/
theorem bufferPushes : Obligations.BufferPushes := fun _ v hs =>
  ⟨fun h => regWrite_yPush hs (buffer_push_of_lt h v), fun h => regWrite_yPush hs (buffer_push_of_le h v),
    fun h => regWrite_tagPush hs (buffer_push_of_lt h v), fun h => regWrite_tagPush hs (buffer_push_of_le h v),
    fun h => regWrite_alphaPush hs (buffer_push_of_lt h v), fun h => regWrite_alphaPush hs (buffer_push_of_le h v)⟩

/-! ## The refused accesses -/

/-- A statement whose access is refused stops the host's turn, whichever of the three it is (R73). -/
theorem hostTurn_refused {s : State} {a : HostStmt} {rest : List HostStmt} {addr size : Nat} {mask v : Word}
    {r : Refusal} (hp : s.program = a :: rest)
    (hmem : a ∈ [HostStmt.wr addr size v, .rd addr size, .poll addr size mask v])
    (hadmit : admitAccess s.params.base addr size = .refused r) : hostTurn s = .refused r := by
  simp only [List.mem_cons, List.not_mem_nil, or_false] at hmem
  rcases hmem with rfl | rfl | rfl <;> simp [hostTurn, hp, hadmit]

/-- Settles O52: the access is refused with reset released, and an asserted reset changes neither the program nor BASE
and passes the refusal on. -/
theorem undefinedAccessRefused : Obligations.UndefinedAccessRefused := by
  intro s addr size v mask rest a hnext hbase hend hbad hmem hprog
  have hadmit : admitAccess s.params.base addr size = .refused .undefinedAccess :=
    admitAccess_refused hbase hend hbad
  cases hreset : s.resetIn with
  | false => exact (step_host hreset hnext).trans (hostTurn_refused (s := s.popTurn) hprog hmem hadmit)
  | true =>
    exact (step_host_held hreset hnext).trans
      (congrArg holdReset (hostTurn_refused (s := s.popTurn.resetBlock) hprog hmem hadmit))

end Sys2Proof.Machine
end

section
/-! PROOFS. The opcode map and the decoder: every mask covers OPC and the eight opcodes differ, so a word selects at most
one row, and decoding says which row that is or why there is none (spec/30_encoding.md R103, R104). -/

namespace Sys2Proof

/-! ## The rows of the opcode map -/

/-- The opcodes of the rows, in the map's order. -/
def assignedOpcodes : List Byte := opcodeMap.map (fun r => opc r.pattern)

theorem assignedOpcodes_eq :
    assignedOpcodes = [0x00#8, 0x01#8, 0x02#8, 0x03#8, 0x04#8, 0x10#8, 0x11#8, 0x12#8] := by decide

theorem opcAssigned_iff (w : Word) : opcAssigned w = true ↔ opc w ∈ assignedOpcodes := by
  simp [opcAssigned, assignedOpcodes]

theorem OpcodeRow.selects_iff (r : OpcodeRow) (w : Word) : r.selects w = true ↔ w &&& r.mask = r.pattern :=
  beq_iff_eq

/-- Every mask covers OPC (R103). -/
theorem opc_mask {r : OpcodeRow} (hr : r ∈ opcodeMap) : opc r.mask = 0xFF#8 := by
  have hall : opcodeMap.map (fun r => opc r.mask) = List.replicate 8 0xFF#8 := by decide
  exact List.eq_of_mem_replicate (hall ▸ List.mem_map_of_mem hr)

/-- A word has the opcode of a row it selects, since the mask leaves OPC whole. -/
theorem opc_eq_of_selects {r : OpcodeRow} {w : Word} (hr : r ∈ opcodeMap) (hw : r.selects w = true) :
    opc w = opc r.pattern :=
  calc opc w = opc w &&& 0xFF#8 := (BitVec.and_allOnes (x := opc w)).symm
    _ = opc w &&& opc r.mask := by rw [opc_mask hr]
    _ = opc (w &&& r.mask) := BitVec.extractLsb'_and.symm
    _ = opc r.pattern := congrArg opc ((r.selects_iff w).mp hw)

/-- A row is known by its opcode (R103). -/
theorem row_eq_of_opc_eq {r r' : OpcodeRow} (hr : r ∈ opcodeMap) (hr' : r' ∈ opcodeMap)
    (h : opc r.pattern = opc r'.pattern) : r = r' := by
  have hnodup : assignedOpcodes.Nodup := by decide
  exact List.inj_on_of_nodup_map hnodup hr hr' h

/-- At most one row matches a word (R103). -/
theorem row_eq_of_selects {r r' : OpcodeRow} {w : Word} (hr : r ∈ opcodeMap) (hr' : r' ∈ opcodeMap)
    (hw : r.selects w = true) (hw' : r'.selects w = true) : r = r' :=
  row_eq_of_opc_eq hr hr' ((opc_eq_of_selects hr hw).symm.trans (opc_eq_of_selects hr' hw'))

theorem opcAssigned_of_selects {r : OpcodeRow} {w : Word} (hr : r ∈ opcodeMap) (hw : r.selects w = true) :
    opcAssigned w = true := by
  rw [opcAssigned_iff, opc_eq_of_selects hr hw]
  exact List.mem_map_of_mem hr

/-! ## What decoding answers -/

/-- Whichever row a word selects is the row the decoder finds. -/
theorem decode_of_selects {r : OpcodeRow} {w : Word} (hr : r ∈ opcodeMap) (hw : r.selects w = true) :
    decode w = .ok (r.build w) := by
  unfold decode
  split
  next r' hfind =>
    have hw' : r'.selects w = true := List.find?_some (p := fun r : OpcodeRow => r.selects w) hfind
    rw [row_eq_of_selects (List.mem_of_find?_eq_some hfind) hr hw' hw]
  next hfind => exact absurd hw (List.find?_eq_none.mp hfind r hr)

/-- A word that selects no row is illegal, and whether its OPC is assigned says why (R104). -/
theorem decode_of_no_row {w : Word} (h : ¬ ∃ r ∈ opcodeMap, r.selects w = true) :
    decode w = if opcAssigned w then .error .reservedBitsSet else .error .unassignedOpcode := by
  have hfind : opcodeMap.find? (fun r => r.selects w) = none :=
    List.find?_eq_none.mpr fun r hr hw => h ⟨r, hr, hw⟩
  simp only [decode, hfind]

theorem decode_eq_ok_iff (w : Word) (i : Instr) :
    decode w = .ok i ↔ ∃ r ∈ opcodeMap, r.selects w = true ∧ r.build w = i := by
  constructor
  · intro hok
    by_cases hrow : ∃ r ∈ opcodeMap, r.selects w = true
    · obtain ⟨r, hr, hw⟩ := hrow
      rw [decode_of_selects hr hw] at hok
      exact ⟨r, hr, hw, Except.ok.inj hok⟩
    · rw [decode_of_no_row hrow] at hok
      split at hok <;> cases hok
  · rintro ⟨r, hr, hw, rfl⟩
    exact decode_of_selects hr hw

theorem decode_eq_unassignedOpcode_iff (w : Word) :
    decode w = .error .unassignedOpcode ↔ opc w ∉ assignedOpcodes := by
  rw [← opcAssigned_iff]
  by_cases hrow : ∃ r ∈ opcodeMap, r.selects w = true
  · obtain ⟨r, hr, hw⟩ := hrow
    simp [decode_of_selects hr hw, opcAssigned_of_selects hr hw]
  · simp [decode_of_no_row hrow]

theorem decode_eq_reservedBitsSet_iff (w : Word) :
    decode w = .error .reservedBitsSet ↔ opc w ∈ assignedOpcodes ∧ ∀ i : Instr, decode w ≠ .ok i := by
  rw [← opcAssigned_iff]
  by_cases hrow : ∃ r ∈ opcodeMap, r.selects w = true
  · obtain ⟨r, hr, hw⟩ := hrow
    simp [decode_of_selects hr hw]
  · cases hassigned : opcAssigned w <;> simp [decode_of_no_row hrow, hassigned]

/-! ## The rows written out -/

/-- The words of a command, row by row: the match under the mask, and the operands of the word's fields (R102, R103). -/
def SelectsCommand (w : Word) : Instr → Prop
  | .nop => w &&& 0xFFFFFFFF#32 = 0x00000000#32
  | .mul a b => w &&& 0xFF0000FF#32 = 0x00000001#32 ∧ a = opa w ∧ b = opb w
  | .mac => w &&& 0xFFFFFFFF#32 = 0x00000002#32
  | .verify t => w &&& 0xFFFF00FF#32 = 0x00000003#32 ∧ t = opa w
  | .combine => w &&& 0xFFFFFFFF#32 = 0x00000004#32
  | .clry => w &&& 0xFFFFFFFF#32 = 0x00000010#32
  | .clrc => w &&& 0xFFFFFFFF#32 = 0x00000011#32
  | .clrkey => w &&& 0xFFFFFFFF#32 = 0x00000012#32

/-- Of the rows a word could select, the only one that builds a command is that command's own. -/
theorem decode_eq_ok_iff_selectsCommand (w : Word) (i : Instr) : decode w = .ok i ↔ SelectsCommand w i := by
  rw [decode_eq_ok_iff]
  cases i <;> simp [opcodeMap, OpcodeRow.selects_iff, SelectsCommand, eq_comm (α := Byte)]

/-- Settles O3: each command has its row of the map, and the two reasons of illegality are those of a word without a
row. -/
theorem decodeIsExact : Obligations.DecodeIsExact := by
  intro w
  have hok := decode_eq_ok_iff_selectsCommand w
  refine ⟨hok .nop, fun a b => hok (.mul a b),
    hok .mac, fun t => hok (.verify t),
    hok .combine, hok .clry, hok .clrc,
    hok .clrkey, ?unassigned, ?reserved⟩
  case unassigned => exact assignedOpcodes_eq ▸ decode_eq_unassignedOpcode_iff w
  case reserved => exact assignedOpcodes_eq ▸ decode_eq_reservedBitsSet_iff w

end Sys2Proof
end

section
/-! PROOFS. The field GF(2^8): the peasant's algorithm commutes with the linear maps of the bytes, and the laws of the
product follow from that (spec/40_field.md R130, R135). -/

namespace Sys2Proof.Machine

/-! ## The linear maps -/

theorem xtime_xor (a b : Byte) : xtime (a ^^^ b) = xtime a ^^^ xtime b := by
  simp only [xtime, BitVec.getLsbD_xor, BitVec.shiftLeft_xor_distrib]
  cases a.getLsbD 7 <;> cases b.getLsbD 7
  case false.false => rfl
  case false.true => exact BitVec.xor_assoc ..
  case true.false =>
    change (a <<< 1 ^^^ b <<< 1) ^^^ 0x1B#8 = (a <<< 1 ^^^ 0x1B#8) ^^^ b <<< 1
    ac_rfl
  case true.true =>
    calc a <<< 1 ^^^ b <<< 1 = (a <<< 1 ^^^ b <<< 1) ^^^ (0x1B#8 ^^^ 0x1B#8) := BitVec.xor_zero.symm
      _ = (a <<< 1 ^^^ 0x1B#8) ^^^ (b <<< 1 ^^^ 0x1B#8) := by ac_rfl

/-- A map of the bytes that keeps sums and the product by x, which `xtime` is: a linear map of the field. -/
structure FieldLinear (f : Byte → Byte) : Prop where
  map_xor : ∀ a b, f (a ^^^ b) = f a ^^^ f b
  map_xtime : ∀ a, f (xtime a) = xtime (f a)

theorem FieldLinear.map_zero {f : Byte → Byte} (hf : FieldLinear f) : f 0#8 = 0#8 :=
  calc f 0#8 = f (0#8 ^^^ 0#8) := by rw [BitVec.xor_self]
    _ = f 0#8 ^^^ f 0#8 := hf.map_xor _ _
    _ = 0#8 := BitVec.xor_self

/-- The rounds only add and take `xtime`, so a linear map passes through them. -/
theorem FieldLinear.map_gmulRounds {f : Byte → Byte} (hf : FieldLinear f) (k : Nat) (acc a b : Byte) :
    f (gmulRounds k acc a b) = gmulRounds k (f acc) (f a) b := by
  induction k generalizing acc a b with
  | zero => rfl
  | succ k ih =>
    simp only [gmulRounds]
    rw [ih, hf.map_xtime, apply_ite f, hf.map_xor]

theorem FieldLinear.map_gmul {f : Byte → Byte} (hf : FieldLinear f) (a b : Byte) : f (gmul a b) = gmul (f a) b := by
  rw [gmul, hf.map_gmulRounds, hf.map_zero, gmul]

/-! ## The product is linear in its first operand -/

theorem gmulRounds_xor (k : Nat) (x y a b c : Byte) :
    gmulRounds k (x ^^^ y) (a ^^^ b) c = gmulRounds k x a c ^^^ gmulRounds k y b c := by
  induction k generalizing x y a b c with
  | zero => rfl
  | succ k ih =>
    simp only [gmulRounds]
    rw [xtime_xor, ← ih]
    split
    · congr 1; ac_rfl
    · rfl

theorem xtime_fieldLinear : FieldLinear xtime := ⟨xtime_xor, fun _ => rfl⟩

theorem gmul_fieldLinear (c : Byte) : FieldLinear (fun a => gmul a c) where
  map_xor a b := gmulRounds_xor 8 0#8 0#8 a b c
  map_xtime a := (xtime_fieldLinear.map_gmul a c).symm

/-! ## The laws of the product -/

theorem gmulRounds_zero_right (k : Nat) (acc a : Byte) : gmulRounds k acc a 0#8 = acc := by
  induction k generalizing a with
  | zero => rfl
  | succ k ih => exact ih (xtime a)

theorem gmul_zero (a : Byte) : gmul a 0#8 = 0#8 := gmulRounds_zero_right 8 0#8 a

theorem gmul_one (a : Byte) : gmul a 1#8 = a :=
  calc gmul a 1#8 = gmulRounds 7 (0#8 ^^^ a) (xtime a) 0#8 := rfl
    _ = a := by rw [gmulRounds_zero_right, BitVec.zero_xor]

theorem one_gmul : ∀ b : Byte, gmul 1#8 b = b := by decide +kernel

/-- Multiplying by c is linear, so it passes through b = gmul 1 b. -/
theorem gmul_comm (b c : Byte) : gmul b c = gmul c b :=
  calc gmul b c = gmul (gmul 1#8 b) c := by rw [one_gmul]
    _ = gmul (gmul 1#8 c) b := (gmul_fieldLinear c).map_gmul 1#8 b
    _ = gmul c b := by rw [one_gmul]

theorem gmul_assoc (a b c : Byte) : gmul (gmul a b) c = gmul a (gmul b c) :=
  calc gmul (gmul a b) c = gmul (gmul b a) c := by rw [gmul_comm a b]
    _ = gmul (gmul b c) a := (gmul_fieldLinear c).map_gmul b a
    _ = gmul a (gmul b c) := gmul_comm _ a

theorem gmul_xor (a b c : Byte) : gmul a (b ^^^ c) = gmul a b ^^^ gmul a c := by
  rw [gmul_comm a, gmul_comm a, gmul_comm a]
  exact (gmul_fieldLinear a).map_xor b c

/-! ## Squares -/

def gsquare (a : Byte) : Byte := gmul a a

theorem gsquare_one : gsquare 1#8 = 1#8 := gmul_one 1#8

theorem gsquare_xor (a b : Byte) : gsquare (a ^^^ b) = gsquare a ^^^ gsquare b := by
  have hexpand (c : Byte) : gmul (a ^^^ b) c = gmul a c ^^^ gmul b c := (gmul_fieldLinear c).map_xor a b
  calc gsquare (a ^^^ b) = (gmul a a ^^^ gmul a b) ^^^ (gmul b a ^^^ gmul b b) := by
        rw [gsquare, hexpand, gmul_xor, gmul_xor]
    _ = (gmul a a ^^^ gmul b b) ^^^ (gmul a b ^^^ gmul a b) := by rw [gmul_comm b a]; ac_rfl
    _ = gsquare a ^^^ gsquare b := by rw [BitVec.xor_self, BitVec.xor_zero, gsquare, gsquare]

theorem gsquare_gmul (a b : Byte) : gsquare (gmul a b) = gmul (gsquare a) (gsquare b) :=
  calc gmul (gmul a b) (gmul a b) = gmul a (gmul (gmul b a) b) := by rw [gmul_assoc, gmul_assoc b]
    _ = gmul (gmul a a) (gmul b b) := by rw [gmul_comm b a, gmul_assoc, gmul_assoc]

theorem iterate_map_op {f : Byte → Byte} {op : Byte → Byte → Byte} (hf : ∀ a b, f (op a b) = op (f a) (f b))
    (k : Nat) (a b : Byte) : f^[k] (op a b) = op (f^[k] a) (f^[k] b) := by
  induction k generalizing a b with
  | zero => rfl
  | succ k ih => simp only [Function.iterate_succ_apply, hf, ih]

/-- The eighth iterate of the square is linear: it keeps products too, and fixes the x of `xtime`. -/
theorem gsquare_iterate_eight_fieldLinear : FieldLinear gsquare^[8] where
  map_xor := iterate_map_op gsquare_xor 8
  map_xtime a := by
    have hx : gsquare^[8] 2#8 = 2#8 := by decide +kernel
    have hxtime (b : Byte) : xtime b = gmul 2#8 b :=
      calc xtime b = xtime (gmul 1#8 b) := by rw [one_gmul]
        _ = gmul 2#8 b := xtime_fieldLinear.map_gmul 1#8 b
    rw [hxtime, hxtime, iterate_map_op gsquare_gmul, hx]

/-- Every byte a satisfies a^256 = a. -/
theorem gsquare_iterate_eight (a : Byte) : gsquare^[8] a = a :=
  calc gsquare^[8] a = gsquare^[8] (gmul 1#8 a) := by rw [one_gmul]
    _ = gmul (gsquare^[8] 1#8) a := gsquare_iterate_eight_fieldLinear.map_gmul 1#8 a
    _ = gmul 1#8 a := by rw [Function.iterate_fixed gsquare_one]
    _ = a := one_gmul a

/-- The field has no idempotents but 0 and 1. -/
theorem eq_zero_or_one_of_gsquare : ∀ e : Byte, gsquare e = e → e = 0#8 ∨ e = 1#8 := by decide +kernel

/-! ## Inverses -/

/-- The power of a with the exponent 2^k - 1, whose binary digits are k ones. -/
def powOnes : (k : Nat) → Byte → Byte
  | 0, _ => 1#8
  | k + 1, a => gmul a (gsquare (powOnes k a))

theorem gmul_powOnes (k : Nat) (a : Byte) : gmul a (powOnes k a) = gsquare^[k] a := by
  induction k with
  | zero => exact gmul_one a
  | succ k ih =>
    calc gmul a (gmul a (gsquare (powOnes k a))) = gmul (gsquare a) (gsquare (powOnes k a)) := (gmul_assoc ..).symm
      _ = gsquare (gmul a (powOnes k a)) := (gsquare_gmul ..).symm
      _ = gsquare^[k + 1] a := by rw [ih, Function.iterate_succ_apply']

/-- The power a^254. -/
def ginv (a : Byte) : Byte := gsquare (powOnes 7 a)

/-- The power e = a^255 keeps a, so it is idempotent, and it is not 0 unless a is. -/
theorem gmul_ginv {a : Byte} (ha : a ≠ 0#8) : gmul a (ginv a) = 1#8 := by
  have hkeep : gmul a (gmul a (ginv a)) = a := (gmul_powOnes 8 a).trans (gsquare_iterate_eight a)
  have hidem : gsquare (gmul a (ginv a)) = gmul a (ginv a) :=
    calc gmul (gmul a (ginv a)) (gmul a (ginv a)) = gmul (gmul a (gmul a (ginv a))) (ginv a) := by
          rw [← gmul_assoc, gmul_comm _ a]
      _ = gmul a (ginv a) := by rw [hkeep]
  rcases eq_zero_or_one_of_gsquare _ hidem with hzero | hone
  · rw [hzero, gmul_zero] at hkeep
    exact absurd hkeep.symm ha
  · exact hone

theorem ginv_gmul_cancel {a : Byte} (ha : a ≠ 0#8) (b : Byte) : gmul (ginv a) (gmul a b) = b := by
  rw [← gmul_assoc, gmul_comm (ginv a), gmul_ginv ha, one_gmul]

/-- Settles O15: linearity gives the ring laws; a nonzero element can be cancelled, so it divides no zero and has one
inverse. -/
theorem gmulFieldLaws : Obligations.GmulFieldLaws := by
  refine ⟨gmul_comm, gmul_one, gmul_zero, gmul_assoc, gmul_xor, ?noZeroDivisors, ?inverse⟩
  case noZeroDivisors =>
    intro a b ha hb hab
    have hcancel := ginv_gmul_cancel ha b
    rw [hab, gmul_zero] at hcancel
    exact hb hcancel.symm
  case inverse =>
    intro a ha
    refine ⟨ginv a, gmul_ginv ha, fun c hc => ?_⟩
    have hcancel := ginv_gmul_cancel ha c
    rw [hc, gmul_one] at hcancel
    exact hcancel.symm

end Sys2Proof.Machine
end

section
/-! PROOFS. The product table: only the initialiser and reset touch it, and the initialiser leaves a complete one alone
(spec/10_state.md R49; spec/40_field.md R132, R133). -/

namespace Sys2Proof.Machine

/-- The two states have the same table and the same READY. -/
structure State.SameTable (s t : State) : Prop where
  ready : t.ready = s.ready
  lutWritten : t.lutWritten = s.lutWritten

theorem State.SameTable.trans {s t u : State} (h : s.SameTable t) (h' : t.SameTable u) : s.SameTable u :=
  ⟨h'.ready.trans h.ready, h'.lutWritten.trans h.lutWritten⟩

theorem State.SameTable.lutRead {s t : State} (h : s.SameTable t) : t.lutRead = s.lutRead := by
  funext a b
  simp only [State.lutRead, h.lutWritten]

theorem State.SupplierOnly.sameTable {s t : State} (h : s.SupplierOnly t) : s.SameTable t := by
  rw [h.eq]
  exact ⟨rfl, rfl⟩

theorem writeReg_sameTable (r : Reg) (v : Word) (s : State) : s.SameTable (s.writeReg r v) := by
  cases r <;> exact ⟨rfl, rfl⟩

theorem regWrite_sameTable (off : Nat) (v : Word) (s : State) : s.SameTable (s.regWrite off v) := by
  rcases regWrite_cases off v s with ⟨_, e⟩ | ⟨r, _, _, _, e⟩ | ⟨r, _, _, e⟩ <;> rw [e]
  · exact ⟨rfl, rfl⟩
  · exact ⟨rfl, rfl⟩
  · exact writeReg_sameTable r v s

theorem hostTurn_sameTable {s t : State} (h : hostTurn s = .next t) : s.SameTable t := by
  rcases hostTurn_cases h with ⟨_, rfl⟩ | ⟨_, _, v, rest, off, _, _, rfl⟩ | ⟨off, rest, _, rfl⟩
  · exact ⟨rfl, rfl⟩
  · have hprogram : s.SameTable { s with program := rest } := ⟨rfl, rfl⟩
    exact hprogram.trans (regWrite_sameTable off v _)
  · exact ⟨rfl, rfl⟩

/-- No command writes the table (R132). -/
theorem exec_sameTable {i : Instr} {s t : State} (h : exec i s = .next t) : s.SameTable t := by
  rcases exec_cases i s with ⟨u, hu, _, ⟨v, e⟩ | ⟨c, _, e⟩⟩ | ⟨_, e⟩ | ⟨_, e⟩ | ⟨_, e⟩ <;>
    obtain rfl := Host.Outcome.next.inj (e.symm.trans h)
  · exact hu.sameTable.trans ⟨rfl, rfl⟩
  · exact hu.sameTable.trans ⟨rfl, rfl⟩
  all_goals exact ⟨rfl, rfl⟩

theorem engineTurn_sameTable {s t : State} (h : engineTurn s = .next t) : s.SameTable t := by
  rcases engineTurn_cases s with ⟨_, e⟩ | ⟨_, i, _, e⟩ | ⟨_, _, _, e⟩
  · obtain rfl := Host.Outcome.next.inj (e.symm.trans h)
    exact ⟨rfl, rfl⟩
  · exact exec_sameTable (e.symm.trans h)
  · obtain rfl := Host.Outcome.next.inj (e.symm.trans h)
    exact ⟨rfl, rfl⟩

/-- With reset released there is nothing to release. -/
theorem releaseReset_of_released {s : State} (hr : s.resetIn = false) : s.releaseReset = s := by
  simp [State.releaseReset, hr]

/-- With READY = 1 the initialiser has nothing to do (R133). -/
theorem initialise_of_ready {s : State} (hready : s.ready = true) (k : Nat) : s.initialise k = s :=
  if_pos hready

/-- A step that is neither under reset nor the initialiser's leaves the table and READY alone (R49, R133). -/
theorem step_sameTable {s t : State} (h : step s = .next t) (hr : s.underReset = false)
    (hi : ∀ k, s.nextTurn ≠ .initialiser k) : s.SameTable t := by
  simp only [State.underReset, Bool.or_eq_false_iff, beq_eq_false_iff_ne] at hr
  obtain ⟨hreleased, hassert⟩ := hr
  have hpop : s.SameTable s.popTurn := ⟨rfl, rfl⟩
  rcases step_cases h with ⟨hheld, _⟩ | ⟨hheld, _⟩ | ⟨hn, _⟩ | ⟨_, rfl⟩ | ⟨_, _, hturn⟩ | ⟨_, _, hturn⟩ | ⟨_, k, hn, _⟩
  · simp [hreleased] at hheld
  · simp [hreleased] at hheld
  · exact absurd hn hassert
  · exact (releaseReset_of_released (s := s.popTurn) hreleased).symm ▸ hpop
  · exact hpop.trans (hostTurn_sameTable hturn)
  · exact hpop.trans (engineTurn_sameTable hturn)
  · exact absurd hn (hi k)

/-- While reset is asserted READY is 0 (R260), so READY = 1 says that reset is released. -/
theorem State.Inv.released_of_ready {s : State} (hs : s.Inv) (hready : s.ready = true) : s.resetIn = false := by
  refine Bool.eq_false_iff.mpr fun hheld => ?_
  obtain ⟨hnotReady, _⟩ := hs.reset_held hheld
  simp [hready] at hnotReady

/-- Once READY = 1 no step but the assertion of reset touches the table: not even the initialiser's (R132). -/
theorem step_sameTable_of_ready {s t : State} (hs : s.Inv) (hready : s.ready = true) (h : step s = .next t)
    (hassert : s.nextTurn ≠ .assertReset) : s.SameTable t := by
  have hreleased := hs.released_of_ready hready
  by_cases hi : ∃ k, s.nextTurn = .initialiser k
  · obtain ⟨k, hk⟩ := hi
    rw [step_initialiser hreleased hk, initialise_of_ready (s := s.popTurn) hready] at h
    obtain rfl := Host.Outcome.next.inj h
    exact ⟨rfl, rfl⟩
  · have hr : s.underReset = false := by simp [State.underReset, hreleased, hassert]
    exact step_sameTable h hr fun k hk => hi ⟨k, hk⟩

/-- Settles O17: a complete table reads as the product, and the step leaves the table and READY as they are. -/
theorem tableIsGmulOnceReady : Obligations.TableIsGmulOnceReady := by
  intro s hs hready
  have hread : s.lutRead = gmul := lutRead_ready s hs hready
  refine ⟨fun a b => congrFun₂ hread a b, fun t h hassert => ?_⟩
  have hsame := step_sameTable_of_ready hs hready h hassert
  exact ⟨hsame.ready.trans hready, fun a b => congrFun₂ (hsame.lutRead.trans hread) a b⟩

end Sys2Proof.Machine
end

section
/-! PROOFS. The plaintexts of the keystream requests, byte by byte (spec/41_keystream.md R151, R152). -/

namespace Sys2Proof.Machine

theorem prgPt_getElem? {len i : Nat} (h : i < len) : (prgPt len)[i]? = some (BitVec.ofNat 8 (i % 256)) := by
  rw [prgPt, List.getElem?_map, List.getElem?_range h, Option.map_some]

theorem prfPt_eq (id j : Half) :
    prfPt id j = [id.extractLsb' 0 8, id.extractLsb' 8 8, j.extractLsb' 0 8, j.extractLsb' 8 8] := rfl

/-- A half word below 256 has a zero high byte. -/
theorem highByte_eq_zero {h : Half} (hlt : h.toNat < 256) : h.extractLsb' 8 8 = 0#8 := by
  have hshift : h.toNat >>> 8 = 0 := Nat.shiftRight_eq_zero _ _ hlt
  apply BitVec.eq_of_toNat_eq
  rw [BitVec.extractLsb'_toNat, hshift]
  rfl

/-- An index below a 16-bit count is itself a 16-bit value. -/
theorem toNat_ofNat_of_lt_half {m : Half} {j : Nat} (h : j < m.toNat) : (BitVec.ofNat 16 j).toNat = j :=
  (BitVec.toNat_ofNat j 16).trans (Nat.mod_eq_of_lt (h.trans m.isLt))

/-- Settles O21: the identifier's high byte is zero because 100 < 256, and M itself is a 16-bit value. -/
theorem keystreamPlaintexts : Obligations.KeystreamPlaintexts := by
  refine ⟨fun len => ⟨prgPt_length len, fun _ => prgPt_getElem?⟩, fun id j => ⟨prfPt_eq id j, fun hid => ?_⟩,
    fun _ _ => toNat_ofNat_of_lt_half⟩
  have hhigh : id.extractLsb' 8 8 = 0#8 := highByte_eq_zero (by omega)
  rw [prfPt_eq, hhigh]
  rfl

end Sys2Proof.Machine
end

section
/-! PROOFS. The tag fold by the weights of the coordinates, and what follows from that form (spec/42_mac.md R174 to
R176). -/

namespace Sys2Proof.Machine

/-! ## Sums of products -/

theorem gmul_xorOver (a : Byte) (k : Nat) (e : Nat → Byte) :
    gmul a (xorOver k e) = xorOver k (fun i => gmul a (e i)) := by
  induction k with
  | zero => exact gmul_zero a
  | succ k ih => rw [xorOver_succ, xorOver_succ, gmul_xor, ih]

theorem xorOver_eq_zero {k : Nat} {e : Nat → Byte} (he : ∀ i, i < k → e i = 0#8) : xorOver k e = 0#8 := by
  induction k with
  | zero => rfl
  | succ k ih => rw [xorOver_succ, ih fun i hi => he i (by omega), he k (by omega), BitVec.xor_self]

/-- A sum with one nonzero term is that term. -/
theorem xorOver_single {k l : Nat} (hk : k < l) {e : Nat → Byte} (he : ∀ i, i ≠ k → e i = 0#8) : xorOver l e = e k := by
  obtain ⟨b, rfl⟩ : ∃ b, l = (k + 1) + b := Nat.exists_eq_add_of_le hk
  rw [xorOver_add, xorOver_succ, xorOver_eq_zero (fun i hi => he i (by omega)),
    xorOver_eq_zero (fun i _ => he (k + 1 + i) (by omega)), BitVec.zero_xor, BitVec.xor_zero]

theorem xor_gmul (a b c : Byte) : gmul (a ^^^ b) c = gmul a c ^^^ gmul b c := (gmul_fieldLinear c).map_xor a b

theorem gmul_eq_zero_iff_left {a b : Byte} (hb : b ≠ 0#8) : gmul a b = 0#8 ↔ a = 0#8 := by
  constructor
  · intro h
    rw [← ginv_gmul_cancel hb a, gmul_comm b, h, gmul_zero]
  · rintro rfl
    rw [gmul_comm, gmul_zero]

/-! ## The fold by weights -/

/-- The weight of coordinate `k` (R175), from the lists the fold works on. -/
def foldWeight (r f : List Byte) (n k : Nat) : Byte :=
  if k < n then r.getD k 0#8 else r.getD k 0#8 ^^^ f.getD (k - n) 0#8

theorem foldWeight_payload {n i : Nat} (r f : List Byte) (hi : i < n) : foldWeight r f n i = r.getD i 0#8 := if_pos hi

theorem foldWeight_coefficient (r f : List Byte) (n j : Nat) :
    foldWeight r f n (n + j) = r.getD (n + j) 0#8 ^^^ f.getD j 0#8 := by
  rw [foldWeight, if_neg (by omega), Nat.add_sub_cancel_left]

/-- Settles O29: a coefficient coordinate stands in both sums of the fold, and the product collects its two factors. -/
theorem foldByWeights : Obligations.FoldByWeights := by
  intro r f y n m hr hf hy
  rw [tagfold_eq_xorOver gmul r f y n m hr hf hy, xorOver_add, BitVec.xor_assoc, ← xorOver_xor]
  congr 1
  apply xorOver_congr
  intro j _
  rw [xor_gmul, gmul_comm (y.getD _ _)]

theorem tagfold_eq_weightedSum {r f y : List Byte} {n m : Nat} (hr : r.length = n + m) (hf : f.length = m)
    (hy : y.length = n + m) :
    tagfold gmul r f y n = xorOver (n + m) (fun i => gmul (foldWeight r f n i) (y.getD i 0#8)) := by
  rw [foldByWeights r f y n m hr hf hy, xorOver_add]
  congr 1
  · exact xorOver_congr fun i hi => by rw [foldWeight_payload r f hi]
  · exact xorOver_congr fun j _ => by rw [foldWeight_coefficient]

theorem getD_zipWith {op : Byte → Byte → Byte} {xs ys : List Byte} {i : Nat} (hx : i < xs.length) (hy : i < ys.length) :
    (List.zipWith op xs ys).getD i 0#8 = op (xs.getD i 0#8) (ys.getD i 0#8) := by
  simp [List.getD_eq_getElem?_getD, hx, hy]

/-- Settles O28: each term of the weighted sum is linear in its coordinate. -/
theorem foldIsLinear : Obligations.FoldIsLinear := by
  intro a b r f y1 y2 n m hr hf hy1 hy2
  have hterm (w u v : Byte) : gmul w (gmul a u ^^^ gmul b v) = gmul a (gmul w u) ^^^ gmul b (gmul w v) := by
    rw [gmul_xor, ← gmul_assoc, ← gmul_assoc, gmul_comm w a, gmul_comm w b, gmul_assoc, gmul_assoc]
  rw [tagfold_eq_weightedSum hr hf (by simp [hy1, hy2]), tagfold_eq_weightedSum hr hf hy1,
    tagfold_eq_weightedSum hr hf hy2, gmul_xorOver, gmul_xorOver, ← xorOver_xor]
  apply xorOver_congr
  intro i hi
  rw [getD_zipWith (hy1 ▸ hi) (hy2 ▸ hi), hterm]

/-- Settles O30: only coordinate k's term is left of the two sums, and the field has no zero divisors. -/
theorem foldDetectsMutation : Obligations.FoldDetectsMutation := by
  intro r f y y' n m k hr hf hy hy' hk hsame hdiff
  have hd : y.getD k 0#8 ^^^ y'.getD k 0#8 ≠ 0#8 := fun h => hdiff (BitVec.xor_eq_zero_iff.mp h)
  have hxor : tagfold gmul r f y n ^^^ tagfold gmul r f y' n =
      gmul (foldWeight r f n k) (y.getD k 0#8 ^^^ y'.getD k 0#8) := by
    rw [tagfold_eq_weightedSum hr hf hy, tagfold_eq_weightedSum hr hf hy', ← xorOver_xor, gmul_xor]
    exact xorOver_single hk fun i hi => by rw [hsame i hi, BitVec.xor_self]
  refine ⟨hxor, not_congr ?_⟩
  rw [← BitVec.xor_eq_zero_iff, hxor]
  exact gmul_eq_zero_iff_left hd

end Sys2Proof.Machine
end

section
/-! PROOFS. The input checks of MAC and VERIFY, in order (spec/42_mac.md R171). -/

namespace Sys2Proof.Machine

theorem keyStore_valid_eq_false_iff (k : KeyStore) : k.valid = false ↔ k.ovf = true ∨ k.cnt ≠ 16 := by
  cases hovf : k.ovf <;> simp [KeyStore.valid, hovf]

/-- The checks over the values of the operands. -/
theorem checkTagInputs_eq (s : State) :
    s.checkTagInputs =
      if (s.k1.ovf = true ∨ s.k1.cnt ≠ 16) ∨ (s.k2.ovf = true ∨ s.k2.cnt ≠ 16) then some .invalidKeyLength
      else if s.idr.toNat < 1 ∨ 100 < s.idr.toNat then some .invalidIdentifier
      else if s.n.toNat = 0 ∨ s.m.toNat = 0 then some .invalidParameter
      else if s.params.vmax < s.n.toNat + s.m.toNat then some .capacityExceeded
      else if s.ybuf.ovf = true ∨ s.ybuf.elems.length ≠ s.n.toNat + s.m.toNat then some .vectorLengthMismatch
      else none := by
  have hzero (h : Half) : h = 0#16 ↔ h.toNat = 0 := BitVec.toNat_inj.symm
  simp only [State.checkTagInputs, Bool.not_eq_true', keyStore_valid_eq_false_iff, Bool.or_eq_true, decide_eq_true_eq,
    beq_iff_eq, bne_iff_ne, hzero, State.vecLen, Buffer.len, ite_or]

/-- MAC and VERIFY share one completion (R170, R200). -/
theorem exec_tag {i : Instr} {c : Byte} (hi : i = .mac ∨ i = .verify c) (s : State) :
    ∃ value, exec i s = .next (s.completeTag value) := by
  rcases hi with rfl | rfl
  · exact ⟨_, rfl⟩
  · exact ⟨_, rfl⟩

theorem completeTag_not_ready {s : State} (hra : s.ra = false) (value : Byte → Byte) :
    s.completeTag value = s.finishErr .notReady := by
  simp [State.completeTag, hra]

theorem completeTag_check {s : State} (hra : s.ra = true) {e : ErrCode} (he : s.checkTagInputs = some e)
    (value : Byte → Byte) : s.completeTag value = s.finishErr e := by
  simp [State.completeTag, hra, he]

/-- Settles O26: each clause is one branch of the chain of checks. -/
theorem tagInputChecks : Obligations.TagInputChecks := by
  intro s c i hi
  obtain ⟨value, hexec⟩ := exec_tag hi s
  have hcheck {e : ErrCode} (hra : s.ra = true) (he : s.checkTagInputs = some e) :
      exec i s = .next (s.finishErr e) := by
    rw [hexec, completeTag_check hra he]
  rw [checkTagInputs_eq] at hcheck
  refine ⟨fun hra => ?notReady, fun hra h1 => ?key, fun hra h1 h2 => ?identifier, fun hra h1 h2 h3 => ?parameter,
    fun hra h1 h2 h3 h4 => ?capacity, fun hra h1 h2 h3 h4 h5 => ?length⟩
  case notReady => rw [hexec, completeTag_not_ready hra]; rfl
  case key => exact hcheck hra (if_pos h1)
  case identifier => exact hcheck hra (by rw [if_neg h1, if_pos h2])
  case parameter => exact hcheck hra (by rw [if_neg h1, if_neg h2, if_pos h3])
  case capacity => exact hcheck hra (by rw [if_neg h1, if_neg h2, if_neg h3, if_pos h4])
  case length => exact hcheck hra (by rw [if_neg h1, if_neg h2, if_neg h3, if_neg h4, if_pos h5])

end Sys2Proof.Machine
end

section
/-! PROOFS. A successful completion of MAC or VERIFY: when there is one, and that its result depends on the operands
and the supplier's cipher alone (spec/42_mac.md R170 to R173). -/

namespace Sys2Proof.Machine

/-! ## When the tag is computed, and which tag -/

/-- A keystream has been answered only when no request failed (R159). -/
theorem draws_ok_of_queryKeystream_some {s t : State} {rf : List Byte × List Byte}
    (h : s.queryKeystream = (some rf, t)) :
    ∀ k, k ≤ s.m.toNat → s.draw k = false := by
  intro k
  induction k using Nat.strong_induction_on with
  | _ k ih =>
    intro hk
    by_contra hfail
    rw [queryKeystream_fail s k hk (fun j hj => ih j hj (by omega)) (by simpa using hfail)] at h
    simp at h

/-- A completion with a valid result has passed readiness, the checks and every request. -/
theorem completeTag_rvalid {value : Byte → Byte} {s : State} (h : (s.completeTag value).rvalid = true) :
    s.ra = true ∧ s.TagInputsOk ∧ ∀ k, k ≤ s.m.toNat → s.draw k = false := by
  rcases completeTag_cases value s with ⟨_, he⟩ | ⟨_, e, _, he⟩ | ⟨_, _, t, _, he⟩ | ⟨hra, hok, r, f, t, hq, _⟩
  · simp [he] at h
  · simp [he] at h
  · simp [he] at h
  · exact ⟨hra, (checkTagInputs_none_iff s).mp hok, draws_ok_of_queryKeystream_some hq⟩

/-- The fold over the keystream as the requests return it is the tag of R172's loops. -/
theorem tagfold_keystream {s : State} (hlen : s.ybuf.elems.length = s.n.toNat + s.m.toNat) :
    tagfold gmul ((s.ks s.k1.bytes.toList s.ivBytes (prgPt s.vecLen)).take s.vecLen)
        ((List.range' 0 s.m.toNat).map
          (fun j => (s.ks s.k2.bytes.toList s.ivBytes (prfPt s.idr (BitVec.ofNat 16 j))).headD 0#8))
        s.ybuf.elems s.n.toNat =
      s.tagOf := by
  have hmask : s.n.toNat + s.m.toNat ≤
      (s.ks s.k1.bytes.toList s.ivBytes (prgPt (s.n.toNat + s.m.toNat))).length :=
    (prgPt_length _).symm.le.trans (ks_length_ge ..)
  rw [State.vecLen, tagfold_eq_xorOver gmul _ _ _ _ s.m.toNat (List.length_take_of_le hmask) (by simp) hlen,
    State.tagOf]
  congr 1
  · refine xorOver_congr fun i hi => ?_
    rw [State.maskAt, State.yAt, List.getD_eq_getElem?_getD, List.getElem?_take_of_lt hi, ← List.getD_eq_getElem?_getD]
  · refine xorOver_congr fun j hj => ?_
    simp [State.prfAt, State.yAt, List.getD_eq_getElem?_getD, hj, List.headD_eq_head?_getD, List.head?_eq_getElem?]

/-- The whole effect of a completion that passes readiness, the checks and every request (R170, R200). -/
theorem completeTag_ok {s : State} (hs : s.Inv) (hra : s.ra = true) (hin : s.TagInputsOk)
    (hdraw : ∀ k, k ≤ s.m.toNat → s.draw k = false) (value : Byte → Byte) :
    s.completeTag value = (s.afterRequests s.tagRequests).finishOk (value s.tagOf) := by
  have hlut : (s.afterRequests s.tagRequests).lutRead = gmul := lutRead_ready s hs (hs.ra_ready hra)
  have hcheck := (checkTagInputs_none_iff s).mpr hin
  simp only [State.completeTag, hra, hcheck, queryKeystream_ok s hdraw, hlut, Bool.not_true,
    Bool.false_eq_true, if_false]
  congr 2
  exact tagfold_keystream hin.filled.2

theorem mac_result {s t : State} (hs : s.Inv) (hexec : exec .mac s = .next t) (hvalid : t.rvalid = true) :
    t.result = s.tagOf := by
  obtain rfl : s.completeTag id = t := Host.Outcome.next.inj hexec
  obtain ⟨hra, hin, hdraw⟩ := completeTag_rvalid hvalid
  rw [completeTag_ok hs hra hin hdraw]
  rfl

/-! ## What the tag depends on -/

theorem State.SameContext.ks_eq {s t : State} (h : s.SameContext t) : s.ks = t.ks := by
  funext key iv pt
  rw [State.ks, State.ks, h.cipher_eq]

theorem State.SameContext.ivBytes_eq {s t : State} (h : s.SameContext t) : s.ivBytes = t.ivBytes := by
  rw [State.ivBytes, State.ivBytes, h.iv0_eq, h.iv1_eq, h.iv2_eq, h.iv3_eq]

theorem State.SameContext.maskAt_eq {s t : State} (h : s.SameContext t) : s.maskAt = t.maskAt := by
  funext i
  rw [State.maskAt, State.maskAt, h.ks_eq, h.ivBytes_eq, h.k1_eq, h.n_eq, h.m_eq]

theorem State.SameContext.prfAt_eq {s t : State} (h : s.SameContext t) : s.prfAt = t.prfAt := by
  funext j
  rw [State.prfAt, State.prfAt, h.ks_eq, h.ivBytes_eq, h.k2_eq, h.id_eq]

/-- The tag is a function of the context and the vector (R173). -/
theorem State.SameContext.tagOf_eq {s t : State} (h : s.SameContext t) (hy : s.ybuf = t.ybuf) : s.tagOf = t.tagOf := by
  have hyAt : s.yAt = t.yAt := by
    funext i
    rw [State.yAt, State.yAt, hy]
  rw [State.tagOf, State.tagOf, h.maskAt_eq, h.prfAt_eq, hyAt, h.n_eq, h.m_eq]

/-- Settles O27: each of the two results is its state's tag. -/
theorem macIsDeterministic : Obligations.MacIsDeterministic := by
  intro s s' t t' hs hs' hcontext hy hmac hmac' hvalid hvalid'
  rw [mac_result hs hmac hvalid, mac_result hs' hmac' hvalid', hcontext.tagOf_eq hy]

end Sys2Proof.Machine
end

section
/-! PROOFS. The tag of a vector as a sum over its coordinates by weight, and the sum of several such tags
(spec/42_mac.md R174, R175). -/

namespace Sys2Proof.Machine

/-! ## Sums over a list -/

theorem gmul_left_comm (a b c : Byte) : gmul a (gmul b c) = gmul b (gmul a c) := by
  rw [← gmul_assoc, ← gmul_assoc, gmul_comm a b]

theorem gmul_xorSum (a : Byte) (xs : List Byte) : gmul a (xorSum xs) = xorSum (xs.map (gmul a)) := by
  induction xs with
  | nil => exact gmul_zero a
  | cons x xs ih => rw [List.map_cons, xorSum_cons, xorSum_cons, gmul_xor, ih]

/-- The order of a sum over indexes and a sum over a list does not matter. -/
theorem xorOver_xorSum {α : Type} (k : Nat) (xs : List α) (e : α → Nat → Byte) :
    xorOver k (fun i => xorSum (xs.map (fun x => e x i))) = xorSum (xs.map (fun x => xorOver k (e x))) := by
  induction xs with
  | nil => exact xorOver_eq_zero fun _ _ => rfl
  | cons x xs ih => simp only [List.map_cons, xorSum_cons, xorOver_xor, ih]

/-! ## The tag by weights -/

theorem State.weightAt_payload {s : State} {i : Nat} (hi : i < s.n.toNat) : s.weightAt i = s.maskAt i := if_pos hi

theorem State.weightAt_coefficient (s : State) (j : Nat) :
    s.weightAt (s.n.toNat + j) = s.maskAt (s.n.toNat + j) ^^^ s.prfAt j := by
  rw [State.weightAt, if_neg (by omega), Nat.add_sub_cancel_left]

theorem State.SameContext.weightAt_eq {s t : State} (h : s.SameContext t) : s.weightAt = t.weightAt := by
  funext k
  rw [State.weightAt, State.weightAt, h.maskAt_eq, h.prfAt_eq, h.n_eq]

/-- R175 for the operands as they stand in the block. -/
theorem State.tagOf_eq_weightedSum (s : State) :
    s.tagOf = xorOver (s.n.toNat + s.m.toNat) (fun i => gmul (s.weightAt i) (s.yAt i)) := by
  rw [State.tagOf, xorOver_add, BitVec.xor_assoc, ← xorOver_xor, xorOver_add]
  congr 1
  · exact xorOver_congr fun i hi => by rw [State.weightAt_payload hi]
  · exact xorOver_congr fun j _ => by rw [State.weightAt_coefficient, xor_gmul, gmul_comm (s.yAt _)]

/-- Within one context only the vectors of two tags differ. -/
theorem State.SameContext.tagOf_eq_weightedSum {s z : State} (h : s.SameContext z) :
    s.tagOf = xorOver (z.n.toNat + z.m.toNat) (fun i => gmul (z.weightAt i) (s.yAt i)) := by
  rw [State.tagOf_eq_weightedSum, h.weightAt_eq, h.n_eq, h.m_eq]

/-- The tag is linear in the vector (R174), over any number of vectors of one context. -/
theorem tagOf_linear {runs : List TagRun} {z : State} (hcontext : ∀ run ∈ runs, run.before.SameContext z)
    (hy : ∀ k, k < z.n.toNat + z.m.toNat →
      z.yAt k = xorSum (runs.map (fun run => gmul run.alpha (run.before.yAt k)))) :
    z.tagOf = xorSum (runs.map (fun run => gmul run.alpha run.before.tagOf)) := by
  have hterm (k : Nat) (hk : k < z.n.toNat + z.m.toNat) :
      gmul (z.weightAt k) (z.yAt k) =
        xorSum (runs.map (fun run => gmul run.alpha (gmul (z.weightAt k) (run.before.yAt k)))) := by
    rw [hy k hk, gmul_xorSum, List.map_map]
    exact congrArg xorSum (List.map_congr_left fun run _ => gmul_left_comm ..)
  rw [State.tagOf_eq_weightedSum, xorOver_congr hterm, xorOver_xorSum]
  refine congrArg xorSum (List.map_congr_left fun run hrun => ?_)
  rw [(hcontext run hrun).tagOf_eq_weightedSum, gmul_xorOver]

end Sys2Proof.Machine
end

section
/-! PROOFS. COMBINE over a complete table, and its laws about tags (spec/43_combine.md R190 to R192). -/

namespace Sys2Proof.Machine

theorem checkCombineInputs_none {s : State} (ht : s.tbuf.ovf = false) (ha : s.abuf.ovf = false)
    (hlen : s.tbuf.elems.length = s.abuf.elems.length) : s.checkCombineInputs = none := by
  simp [State.checkCombineInputs, Buffer.len, ht, ha, hlen]

/-- The whole effect of a COMBINE that passes readiness and the checks (R190). -/
theorem exec_combine_ok {s : State} (hs : s.Inv) (hra : s.ra = true) (hcheck : s.checkCombineInputs = none) :
    exec .combine s = .next (s.finishOk (xorProducts gmul s.abuf.elems s.tbuf.elems)) := by
  have hlut : s.lutRead = gmul := lutRead_ready s hs (hs.ra_ready hra)
  simp [exec, execCombine, hra, hcheck, hlut]

/-- COMBINE of buffers that did not overflow and whose elements come in pairs. -/
theorem exec_combine_pairs {α : Type} {s : State} (hs : s.Inv) (hra : s.ra = true) {xs : List α} {tag alpha : α → Byte}
    (ht : s.tbuf = ⟨xs.map tag, false⟩) (ha : s.abuf = ⟨xs.map alpha, false⟩) :
    exec .combine s = .next (s.finishOk (xorSum (xs.map (fun x => gmul (alpha x) (tag x))))) := by
  have hcheck : s.checkCombineInputs = none := checkCombineInputs_none (by rw [ht]) (by rw [ha]) (by simp [ht, ha])
  rw [exec_combine_ok hs hra hcheck, ht, ha, xorProducts, List.zipWith_map, List.zipWith_self]

/-- Settles O36: the sum has one term, and 1 is the unit of the product. -/
theorem combineIdentity : Obligations.CombineIdentity := by
  intro s tag hs hra ht ha
  refine ⟨_, exec_combine_pairs (xs := [tag]) (tag := id) (alpha := fun _ => 1#8) hs hra ht ha, rfl, rfl, ?_⟩
  calc xorSum [gmul 1#8 tag] = gmul 1#8 tag := by rw [xorSum_cons, xorSum_nil, BitVec.xor_zero]
    _ = tag := one_gmul tag

/-- Settles O38: each result is its state's tag, and the tag is linear in the vector. -/
theorem combineHomomorphism : Obligations.CombineHomomorphism := by
  intro runs z tz c hruns hz hmac hvalid hy hc hra ht ha
  refine ⟨_, exec_combine_pairs hc hra ht ha, rfl, ?_⟩
  have hresult (run : TagRun) (hrun : run ∈ runs) :
      gmul run.alpha run.after.result = gmul run.alpha run.before.tagOf := by
    rw [mac_result (hruns run hrun).inv (hruns run hrun).mac (hruns run hrun).success]
  calc xorSum (runs.map (fun run => gmul run.alpha run.after.result))
      = xorSum (runs.map (fun run => gmul run.alpha run.before.tagOf)) :=
        congrArg xorSum (List.map_congr_left hresult)
    _ = z.tagOf := (tagOf_linear (fun run hrun => (hruns run hrun).context) hy).symm
    _ = tz.result := (mac_result hz hmac hvalid).symm

end Sys2Proof.Machine
end

section
/-! PROOFS. VERIFY: its result, what it changes, and what a host reads after it (spec/44_verify.md R200 to R203). -/

namespace Sys2Proof.Machine

/-! ## How MAC and VERIFY end -/

/-- A completion that readiness, a check or a request stops is an error completion (R170, R200). -/
theorem completeTag_fails (value : Byte → Byte) {s : State}
    (h : ¬ (s.ra = true ∧ s.TagInputsOk ∧ ∀ k, k ≤ s.m.toNat → s.draw k = false)) :
    ∃ u : State, ∃ e ∈ commandCodes, s.completeTag value = u.finishErr e := by
  obtain ⟨u, _, ⟨v, hok⟩ | herr⟩ := completeTag_ends value s
  · exact absurd (completeTag_rvalid (by rw [hok, State.finishOk_rvalid])) h
  · exact ⟨u, herr⟩

theorem ne_noError_of_mem_commandCodes {e : ErrCode} (h : e ∈ commandCodes) : e ≠ .noError := by
  rintro rfl
  exact absurd h (by decide)

/-- The frame of the shared completion: beside RESULT and ERR it moves only the supplier's side, and RVALID tells
whether there was an error (R45, R46, R160). -/
theorem completeTag_frame (value : Byte → Byte) {s t : State} (h : s.completeTag value = t) :
    t = { s with
      result := t.result, rvalid := decide (t.err = .noError), err := t.err, phase := .idle, done := true,
      requests := t.requests, draws := t.draws, drawn := t.drawn } := by
  subst h
  obtain ⟨u, hu, ⟨v, hok⟩ | ⟨e, he, herr⟩⟩ := completeTag_ends value s
  · rw [hok, hu.eq]
    rfl
  · rw [herr, hu.eq]
    simp [State.finishErr, ne_noError_of_mem_commandCodes he]

/-- RESULT after the shared completion: 0, or what `value` makes of a tag (R46, R170, R200). -/
theorem completeTag_result (value : Byte → Byte) (s : State) :
    (s.completeTag value).result = 0#8 ∨ ∃ tc, (s.completeTag value).result = value tc := by
  rcases completeTag_cases value s with ⟨_, h⟩ | ⟨_, _, _, h⟩ | ⟨_, _, _, _, h⟩ | ⟨_, _, _, _, _, _, h⟩ <;> rw [h]
  · exact .inl rfl
  · exact .inl rfl
  · exact .inl rfl
  · exact .inr ⟨_, rfl⟩

/-! ## The result of VERIFY -/

/-- What VERIFY makes of a recomputed tag (R200). -/
def matchBit (c tc : Byte) : Byte := if tc = c then 1#8 else 0#8

theorem exec_verify (c : Byte) (s : State) : exec (.verify c) s = .next (s.completeTag (matchBit c)) := rfl

/-- The completed state of a VERIFY, by the completion it shares with MAC. -/
theorem completeTag_of_exec_verify {c : Byte} {s t : State} (h : exec (.verify c) s = .next t) :
    s.completeTag (matchBit c) = t := Host.Outcome.next.inj h

theorem matchBit_self (c : Byte) : matchBit c c = 1#8 := if_pos rfl

theorem matchBit_of_ne {c tc : Byte} (h : tc ≠ c) : matchBit c tc = 0#8 := if_neg h

theorem matchBit_eq_zero_iff (c tc : Byte) : matchBit c tc = 0#8 ↔ tc ≠ c := by
  by_cases h : tc = c <;> simp [matchBit, h]

theorem verify_result {c : Byte} {s t : State} (hs : s.Inv) (hexec : exec (.verify c) s = .next t)
    (hvalid : t.rvalid = true) : t.result = matchBit c s.tagOf := by
  obtain rfl := completeTag_of_exec_verify hexec
  obtain ⟨hra, hin, hdraw⟩ := completeTag_rvalid hvalid
  rw [completeTag_ok hs hra hin hdraw]
  rfl

/-- RESULT holds no more than MATCH (R201). -/
theorem verify_result_zero_or_one {c : Byte} {s t : State} (hexec : exec (.verify c) s = .next t) :
    t.result = 0#8 ∨ t.result = 1#8 := by
  obtain rfl := completeTag_of_exec_verify hexec
  rcases completeTag_result (matchBit c) s with hzero | ⟨tc, htc⟩
  · exact .inl hzero
  · rw [htc]
    by_cases h : tc = c
    · exact .inr (h ▸ matchBit_self tc)
    · exact .inl (matchBit_of_ne h)

/-! ## The tag after a change of one coordinate -/

/-- R176 for the operands as they stand in the block. -/
theorem State.SameContext.tagOf_xor {s s' : State} (h : s.SameContext s') {k : Nat} (hk : k < s.n.toNat + s.m.toNat)
    (hsame : ∀ i, i ≠ k → s.yAt i = s'.yAt i) :
    s.tagOf ^^^ s'.tagOf = gmul (s.weightAt k) (s.yAt k ^^^ s'.yAt k) := by
  rw [State.tagOf_eq_weightedSum s, State.tagOf_eq_weightedSum s', ← h.weightAt_eq, ← h.n_eq, ← h.m_eq, ← xorOver_xor,
    gmul_xor]
  exact xorOver_single hk fun i hi => by rw [hsame i hi, BitVec.xor_self]

/-- The change is detected exactly where the coordinate has a weight (R176). -/
theorem State.SameContext.tagOf_eq_iff {s s' : State} (h : s.SameContext s') {k : Nat}
    (hk : k < s.n.toNat + s.m.toNat) (hsame : ∀ i, i ≠ k → s.yAt i = s'.yAt i) (hdiff : s.yAt k ≠ s'.yAt k) :
    s.tagOf = s'.tagOf ↔ s.weightAt k = 0#8 := by
  have hd : s.yAt k ^^^ s'.yAt k ≠ 0#8 := fun hzero => hdiff (BitVec.xor_eq_zero_iff.mp hzero)
  rw [← BitVec.xor_eq_zero_iff, h.tagOf_xor hk hsame]
  exact gmul_eq_zero_iff_left hd

/-- Settles O31: both results are made of their state's tag, and the two tags are equal when the vectors are, or when the
changed coordinate has no weight. -/
theorem verifyAgreesWithMac : Obligations.VerifyAgreesWithMac := by
  intro s s' t t' c hs hs' hcontext hmac hvalid hverify hvalid'
  have hresult' : t'.result = matchBit c s'.tagOf := verify_result hs' hverify hvalid'
  rw [hresult', mac_result hs hmac hvalid]
  refine ⟨fun hy => ?same, fun k hk hsame hdiff hc => ?changed⟩
  case same =>
    rw [hcontext.tagOf_eq hy, matchBit]
    simp only [eq_comm]
  case changed =>
    rw [matchBit_eq_zero_iff, hc, ne_comm]
    exact not_congr (hcontext.tagOf_eq_iff hk hsame hdiff)

/-- Settles O32: a run that nothing stops ends with the match bit of the tag, and any other with an error. -/
theorem verifyErrorIsNotMismatch : Obligations.VerifyErrorIsNotMismatch := by
  refine fun s c => ⟨fun hs hra hin hdraw => ?completes, fun hstop => ?fails⟩
  case completes =>
    have hexec := exec_verify c s
    rw [completeTag_ok hs hra hin hdraw] at hexec
    refine ⟨_, hexec, rfl, rfl, matchBit_of_ne, ?_⟩
    rintro rfl
    exact matchBit_self s.tagOf
  case fails =>
    have hnot : ¬ (s.ra = true ∧ s.TagInputsOk ∧ ∀ k, k ≤ s.m.toNat → s.draw k = false) := by
      rintro ⟨hra, hin, hdraw⟩
      rcases hstop with hra' | hin' | ⟨k, hk, hfail⟩
      · simp [hra'] at hra
      · exact hin' hin
      · simp [hdraw k hk] at hfail
    obtain ⟨u, e, he, herr⟩ := completeTag_fails (matchBit c) hnot
    exact ⟨_, (exec_verify c s).trans (congrArg _ herr), ne_noError_of_mem_commandCodes he, rfl, rfl⟩

/-! ## What a host reads -/

/-- Two states read alike when every register reads alike (R71, R74). -/
theorem readsAlike_iff (s t : State) : s.ReadsAlike t ↔ ∀ r, s.readReg r = t.readReg r := by
  constructor
  · intro h r
    have halign : regOffset r % 4 = 0 := by cases r <;> rfl
    simpa using h (regOffset r) ((regOffset_le r).trans (by decide)) halign
  · intro h off _ _
    simp only [State.regRead, h]

/-- READY is bit 0 of STATUS (R33). -/
theorem statusWord_getLsbD_ready (s : State) : s.statusWord.getLsbD 0 = s.ready := by
  simp [State.statusWord]

/-- LOST is bit 4 of STATUS (R33). -/
theorem statusWord_getLsbD_lost (s : State) : s.statusWord.getLsbD 4 = s.lost := by
  simp [State.statusWord]

/-- STATUS after a completion of MAC or VERIFY: READY, LOST and ERR decide it. -/
theorem statusWord_completeTag (value : Byte → Byte) {s t : State} (h : s.completeTag value = t) :
    t.statusWord =
      flagAt 0 s.ready ||| flagAt 1 false ||| flagAt 2 true ||| flagAt 3 (decide (t.err = .noError)) ||| flagAt 4 s.lost
        ||| (t.err.code.setWidth 32 <<< 8) := by
  have hbusy : (Phase.idle == Phase.busy) = false := rfl
  conv_lhs => rw [completeTag_frame value h]
  simp only [State.statusWord, State.busy, hbusy]

/-- A completion of MAC or VERIFY shows in no register but STATUS and RESULT. -/
theorem readReg_completeTag (value : Byte → Byte) {s t : State} (h : s.completeTag value = t) {r : Reg}
    (hstatus : r ≠ .status) (hresult : r ≠ .result) : t.readReg r = s.readReg r := by
  rw [completeTag_frame value h]
  cases r with
  | status => exact absurd rfl hstatus
  | result => exact absurd rfl hresult
  | _ => rfl

/-- Settles O33: RESULT is the match bit, STATUS follows from what a host could read before and the code, and no other
register changes. -/
theorem verifyExposesOnlyMatch : Obligations.VerifyExposesOnlyMatch := by
  intro s s' t t' c halike hexec hexec' herr hmatch
  have hread := (readsAlike_iff s s').mp halike
  have hcomplete := completeTag_of_exec_verify hexec
  have hcomplete' := completeTag_of_exec_verify hexec'
  refine ⟨(readsAlike_iff t t').mpr fun r => ?_, verify_result_zero_or_one hexec⟩
  by_cases hstatus : r = .status
  · subst hstatus
    have hword : s.statusWord = s'.statusWord := hread .status
    have hready : s.ready = s'.ready := by rw [← statusWord_getLsbD_ready, hword, statusWord_getLsbD_ready]
    have hlost : s.lost = s'.lost := by rw [← statusWord_getLsbD_lost, hword, statusWord_getLsbD_lost]
    change t.statusWord = t'.statusWord
    rw [statusWord_completeTag _ hcomplete, statusWord_completeTag _ hcomplete', hready, hlost, herr]
  by_cases hresult : r = .result
  · subst hresult
    have heq : t.result = t'.result := by
      rcases verify_result_zero_or_one hexec with h | h <;> rcases verify_result_zero_or_one hexec' with h' | h' <;>
        simp [h, h'] at hmatch ⊢
    exact congrArg (·.setWidth 32) heq
  calc t.readReg r = s.readReg r := readReg_completeTag _ hcomplete hstatus hresult
    _ = s'.readReg r := hread r
    _ = t'.readReg r := (readReg_completeTag _ hcomplete' hstatus hresult).symm

end Sys2Proof.Machine
end

section
/-! PROOFS. Which commands test RA (spec/45_housekeeping.md R214). -/

namespace Sys2Proof.Machine

/-- A housekeeping command ends with result 0 after its clearing, and asks nothing of the state (R210 to R213). -/
theorem exec_housekeeping {i : Instr} (hi : i ∈ [Instr.nop, .clry, .clrc, .clrkey]) (s : State) :
    ∃ u : State, exec i s = .next (u.finishOk 0#8) := by
  simp only [List.mem_cons, List.not_mem_nil, or_false] at hi
  rcases hi with rfl | rfl | rfl | rfl
  · exact ⟨s, rfl⟩
  · exact ⟨{ s with ybuf := Buffer.empty }, rfl⟩
  · exact ⟨{ s with tbuf := Buffer.empty, abuf := Buffer.empty }, rfl⟩
  · exact ⟨{ s with k1 := KeyStore.empty, k2 := KeyStore.empty }, rfl⟩

theorem exec_mul_not_ready {s : State} (hra : s.ra = false) (a b : Byte) :
    exec (.mul a b) s = .next (s.finishErr .notReady) := by
  simp [exec, execMul, hra]

theorem exec_combine_not_ready {s : State} (hra : s.ra = false) : exec .combine s = .next (s.finishErr .notReady) := by
  simp [exec, execCombine, hra]

/-- MAC and VERIFY test RA in the completion they share (R170, R200). -/
theorem exec_tag_not_ready {i : Instr} {c : Byte} (hi : i = .mac ∨ i = .verify c) {s : State} (hra : s.ra = false) :
    exec i s = .next (s.finishErr .notReady) := by
  obtain ⟨value, hexec⟩ := exec_tag hi s
  rw [hexec, completeTag_not_ready hra]

/-- Settles O40: the housekeeping commands end normally from every state, and each command that reads the table stops at
its test of RA. -/
theorem readinessTest : Obligations.ReadinessTest := by
  refine fun s => ⟨fun i hi => ?housekeeping, fun hra a b c i hi => ?notReady⟩
  case housekeeping =>
    obtain ⟨u, hexec⟩ := exec_housekeeping hi s
    exact ⟨u.finishOk 0#8, hexec, State.finishOk_err .., State.finishOk_rvalid ..⟩
  case notReady =>
    change exec i s = .next (s.finishErr .notReady)
    simp only [List.mem_cons, List.not_mem_nil, or_false] at hi
    rcases hi with rfl | rfl | rfl | rfl
    · exact exec_mul_not_ready hra a b
    · exact exec_tag_not_ready (c := c) (.inl rfl) hra
    · exact exec_tag_not_ready (.inr rfl) hra
    · exact exec_combine_not_ready hra

end Sys2Proof.Machine
end

section
/-! PROOFS. How a command in flight completes: the error codes each word can raise, and what an error completion leaves
alone (spec/60_exceptions.md R232, R235). -/

namespace Sys2Proof.Machine

open Sys2Proof.Laws.EncodingFields (opcodeByte)

/-! ## The completion step -/

/-- The engine's step on a command in flight: the decoded command's completion, or that of an illegal word (R104). -/
theorem step_completion {s t : State} (hr : s.resetIn = false) (hb : s.phase = .busy) (hn : s.nextTurn = .engine)
    (h : step s = .next t) :
    (∃ i, decode s.cmdl = .ok i ∧ exec i s.popTurn = .next t) ∨
    (∃ e, decode s.cmdl = .error e ∧ t = s.popTurn.finishErr .illegalCommand) := by
  rw [step_engine hr hn] at h
  rcases engineTurn_cases s.popTurn with ⟨hidle, _⟩ | ⟨_, i, hi, hturn⟩ | ⟨_, e, he, hturn⟩
  · exact absurd (hb.symm.trans hidle) Phase.noConfusion
  · exact .inl ⟨i, hi, hturn.symm.trans h⟩
  · exact .inr ⟨e, he, Host.Outcome.next.inj (h.symm.trans hturn)⟩

/-! ## The codes of each command -/

/-- R232's table: the codes a legal word of the command's opcode, or an illegal one, can leave in ERR. -/
def errRow : Instr → List ErrCode
  | .nop | .clry | .clrc | .clrkey => [.noError, .illegalCommand]
  | .mul _ _ => [.noError, .illegalCommand, .notReady]
  | .mac | .verify _ =>
    [.noError, .illegalCommand, .notReady, .invalidKeyLength, .invalidIdentifier, .invalidParameter, .capacityExceeded,
      .vectorLengthMismatch, .cryptoFailure]
  | .combine => [.noError, .illegalCommand, .notReady, .capacityExceeded, .vectorLengthMismatch]

theorem illegalCommand_mem_errRow (i : Instr) : .illegalCommand ∈ errRow i := by
  cases i <;> simp [errRow]

theorem completeTag_err_mem (value : Byte → Byte) (s : State) : (s.completeTag value).err ∈ errRow .mac := by
  obtain ⟨u, _, ⟨v, hok⟩ | ⟨e, he, herr⟩⟩ := completeTag_ends value s
  · rw [hok, State.finishOk_err]
    decide
  · have hrow : ∀ e ∈ commandCodes, e ∈ errRow .mac := by decide
    rw [herr, State.finishErr_err]
    exact hrow e he

theorem exec_mul_err_mem {a b : Byte} {s t : State} (h : exec (.mul a b) s = .next t) : t.err ∈ errRow (.mul a b) := by
  obtain rfl := Host.Outcome.next.inj h
  cases s.ra <;> simp [errRow]

theorem exec_combine_err_mem {s t : State} (h : exec .combine s = .next t) : t.err ∈ errRow .combine := by
  obtain rfl := Host.Outcome.next.inj h
  cases s.ra
  · simp [errRow]
  · cases hcheck : s.checkCombineInputs with
    | none => simp [errRow]
    | some e => rcases checkCombineInputs_codes hcheck with rfl | rfl <;> simp [errRow]

/-- A command raises no code missing from its row (R232). -/
theorem exec_err_mem {i : Instr} {s t : State} (h : exec i s = .next t) : t.err ∈ errRow i := by
  have hhousekeeping (hi : i ∈ [Instr.nop, .clry, .clrc, .clrkey]) : t.err = .noError := by
    obtain ⟨u, hexec⟩ := exec_housekeeping hi s
    obtain rfl := Host.Outcome.next.inj (hexec.symm.trans h)
    exact State.finishOk_err ..
  cases i with
  | nop | clry | clrc | clrkey => simp [hhousekeeping, errRow]
  | mul a b => exact exec_mul_err_mem h
  | mac => exact Host.Outcome.next.inj h ▸ completeTag_err_mem _ s
  | verify c => exact completeTag_of_exec_verify h ▸ completeTag_err_mem _ s
  | combine => exact exec_combine_err_mem h

/-- A legal word has the opcode of its command (R103). -/
theorem opc_of_decode {w : Word} {i : Instr} (h : decode w = .ok i) : opc w = opcodeByte i := by
  obtain ⟨r, hr, hw, rfl⟩ := (decode_eq_ok_iff w i).mp h
  rw [opc_eq_of_selects hr hw]
  simp only [opcodeMap, List.mem_cons, List.not_mem_nil, or_false] at hr
  rcases hr with rfl | rfl | rfl | rfl | rfl | rfl | rfl | rfl <;> rfl

/-- The rows of R232's table, found by opcode. -/
theorem errRow_subset_of_opcodeByte (i : Instr) :
    (opcodeByte i ∈ [0x00#8, 0x10#8, 0x11#8, 0x12#8] → errRow i ⊆ errRow .nop) ∧
    (opcodeByte i = 0x01#8 → errRow i ⊆ errRow (.mul 0#8 0#8)) ∧
    (opcodeByte i ∈ [0x02#8, 0x03#8] → errRow i ⊆ errRow .mac) ∧
    (opcodeByte i = 0x04#8 → errRow i ⊆ errRow .combine) := by
  cases i <;> simp [opcodeByte, errRow]

/-- Settles O12: a legal word has its command's opcode, and its command keeps to the row of R232; an illegal word raises
ILLEGAL_COMMAND, which every row has. -/
theorem commandErrorCodes : Obligations.CommandErrorCodes := by
  intro s t hr hb hn h
  rcases step_completion hr hb hn h with ⟨i, hi, hexec⟩ | ⟨e, _, rfl⟩
  · have hmem := exec_err_mem hexec
    have hopc : s.cmdl.extractLsb' 0 8 = opcodeByte i := opc_of_decode hi
    obtain ⟨hhousekeeping, hmul, htag, hcombine⟩ := errRow_subset_of_opcodeByte i
    rw [← hopc] at hhousekeeping hmul htag hcombine
    exact ⟨fun ho => hhousekeeping ho hmem, fun ho => hmul ho hmem, fun ho => htag ho hmem,
      fun ho => hcombine ho hmem, fun hillegal => absurd hi (hillegal i)⟩
  · exact ⟨fun _ => illegalCommand_mem_errRow .nop, fun _ => illegalCommand_mem_errRow (.mul 0#8 0#8),
      fun _ => illegalCommand_mem_errRow .mac, fun _ => illegalCommand_mem_errRow .combine, fun _ => rfl⟩

/-! ## What an error completion leaves alone -/

/-- A command that ends with an error ends with `finishErr`, after changes of the supplier's side alone (R235). -/
theorem exec_error {i : Instr} {s t : State} (h : exec i s = .next t) (herr : t.err ≠ .noError) :
    ∃ u, s.SupplierOnly u ∧ t = u.finishErr t.err := by
  rcases exec_cases i s with ⟨u, hu, _, ⟨v, e⟩ | ⟨c, _, e⟩⟩ | ⟨_, e⟩ | ⟨_, e⟩ | ⟨_, e⟩ <;>
    obtain rfl := Host.Outcome.next.inj (e.symm.trans h)
  case inl.inr => exact ⟨u, hu, rfl⟩
  all_goals exact absurd (State.finishOk_err ..) herr

/-- The same of any word the engine completes. -/
theorem step_error {s t : State} (hr : s.resetIn = false) (hb : s.phase = .busy) (hn : s.nextTurn = .engine)
    (h : step s = .next t) (herr : t.err ≠ .noError) : ∃ u, s.popTurn.SupplierOnly u ∧ t = u.finishErr t.err := by
  rcases step_completion hr hb hn h with ⟨i, _, hexec⟩ | ⟨_, _, rfl⟩
  · exact exec_error hexec herr
  · exact ⟨s.popTurn, .refl _, rfl⟩

theorem step_engine_held {s : State} (hr : s.resetIn = true) (hn : s.nextTurn = .engine) :
    step s = .next s.popTurn.resetBlock := by
  simp [step, runTurn, hn, hr]

/-- Settles O13: an asserted reset leaves no error, so the step is a completion, which ends with `finishErr`. -/
theorem errorChangesNothingElse : Obligations.ErrorChangesNothingElse := by
  intro s t hb hn h herr
  have hreleased : s.resetIn = false := by
    refine Bool.eq_false_iff.mpr fun hheld => ?_
    obtain rfl := Host.Outcome.next.inj ((step_engine_held hheld hn).symm.trans h)
    exact herr (State.resetBlock_err _)
  obtain ⟨u, hu, ht⟩ := step_error hreleased hb hn h herr
  rw [ht, hu.eq]
  rfl

end Sys2Proof.Machine
end

section
/-! PROOFS. The events of the interrupt (spec/60_exceptions.md R238). -/

namespace Sys2Proof.Machine

/-! ## What raises and what drops IRQ -/

theorem irq_of_done {s : State} (h : s.done = true) : s.irq = s.ie := by
  rw [State.irq, h, Bool.true_and]

theorem irq_of_not_done {s : State} (h : s.done = false) : s.irq = false := by
  rw [State.irq, h, Bool.false_and]

theorem irq_of_masked {s : State} (h : s.ie = false) : s.irq = false := by
  rw [State.irq, h, Bool.and_false]

theorem exec_done {i : Instr} {s t : State} (h : exec i s = .next t) : t.done = true := by
  rcases exec_cases i s with ⟨u, _, _, ⟨v, e⟩ | ⟨c, _, e⟩⟩ | ⟨_, e⟩ | ⟨_, e⟩ | ⟨_, e⟩ <;>
    obtain rfl := Host.Outcome.next.inj (e.symm.trans h) <;> rfl

/-- Every completion sets DONE, an illegal word's too (R45, R46). -/
theorem step_completion_done {s t : State} (hr : s.resetIn = false) (hb : s.phase = .busy) (hn : s.nextTurn = .engine)
    (h : step s = .next t) : t.done = true := by
  rcases step_completion hr hb hn h with ⟨i, _, hexec⟩ | ⟨_, _, rfl⟩
  · exact exec_done hexec
  · rfl

theorem writeStatus_done_of_bit {v : Word} (hv : v.getLsbD 2 = true) (s : State) : (s.writeStatus v).done = false := by
  simp [hv]

/-! ## Only a write of CTRL raises IRQ beside a completion -/

/-- The step from `s` to `t` does not raise IRQ. -/
def State.NoIrqRise (s t : State) : Prop := t.irq = true → s.irq = true

/-- Where IE stays, IRQ rises only with DONE. -/
theorem State.NoIrqRise.of_done {s t : State} (hdone : t.done = true → s.done = true) (hie : t.ie = s.ie) :
    s.NoIrqRise t := by
  simp only [State.NoIrqRise, State.irq, hie, Bool.and_eq_true]
  exact And.imp_left hdone

/-- A write of STATUS can only clear DONE (R79). -/
theorem writeStatus_noIrqRise (v : Word) (s : State) : s.NoIrqRise (s.writeStatus v) :=
  .of_done (by simp) rfl

theorem writeReg_noIrqRise {r : Reg} (hr : r ≠ .ctrl) (v : Word) (s : State) : s.NoIrqRise (s.writeReg r v) := by
  cases r with
  | ctrl => exact absurd rfl hr
  | status => exact writeStatus_noIrqRise v s
  | cmd => exact fun h => absurd h Bool.false_ne_true
  | _ => exact id

theorem regOffset_of_regAt {off : Nat} {r : Reg} (h : regAt off = some r) : regOffset r = off :=
  beq_iff_eq.mp (List.find?_some (p := fun r => regOffset r == off) h)

theorem regWrite_noIrqRise {off : Nat} (hoff : off ≠ regOffset .ctrl) (v : Word) (s : State) :
    s.NoIrqRise (s.regWrite off v) := by
  rcases regWrite_cases off v s with ⟨_, e⟩ | ⟨_, _, _, _, e⟩ | ⟨r, hr, _, e⟩ <;> rw [e]
  · exact id
  · exact id
  · refine writeReg_noIrqRise ?_ v s
    rintro rfl
    exact hoff (regOffset_of_regAt hr).symm

/-- A host turn that raises IRQ is a write of CTRL. -/
theorem hostTurn_irq_rise {s t : State} (h : hostTurn s = .next t) (hrise : ¬ s.NoIrqRise t) :
    ∃ addr size v rest, s.program = .wr addr size v :: rest ∧ addr = s.params.base + 0x04 := by
  rcases hostTurn_cases h with ⟨_, rfl⟩ | ⟨addr, size, v, rest, off, hp, hadmit, rfl⟩ | ⟨_, _, _, rfl⟩
  · exact absurd id hrise
  · obtain ⟨hbase, _, _, _, hoff⟩ := (admitAccess_next_iff ..).mp hadmit
    have hctrl : off = regOffset .ctrl := by
      by_contra hne
      exact hrise (regWrite_noIrqRise hne v { s with program := rest })
    rw [regOffset] at hctrl
    exact ⟨addr, size, v, rest, hp, by omega⟩
  · exact absurd id hrise

/-- The engine raises IRQ only by a completion. -/
theorem engineTurn_irq_rise {s t : State} (h : engineTurn s = .next t) (hrise : ¬ s.NoIrqRise t) : s.phase = .busy := by
  rcases engineTurn_cases s with ⟨_, e⟩ | ⟨hb, _⟩ | ⟨hb, _⟩
  · obtain rfl := Host.Outcome.next.inj (e.symm.trans h)
    exact absurd id hrise
  · exact hb
  · exact hb

/-- READY's rise raises nothing (R238). -/
theorem initialise_noIrqRise (k : Nat) (s : State) : s.NoIrqRise (s.initialise k) := by
  rcases initialise_eq k s with e | ⟨_, e⟩ <;> rw [e] <;> exact id

theorem resetBlock_noIrqRise (s u : State) : s.NoIrqRise u.resetBlock := fun h => absurd h Bool.false_ne_true

theorem releaseReset_noIrqRise (s : State) : s.NoIrqRise s.releaseReset := by
  cases hr : s.resetIn with
  | false => exact (releaseReset_of_released hr).symm ▸ id
  | true => simp [State.releaseReset, hr, State.NoIrqRise, State.irq]

/-- Whose steps raise IRQ: the engine's completion and the host's write of CTRL (R238). -/
theorem step_irq_rise {s t : State} (h : step s = .next t) (hrise : ¬ s.NoIrqRise t) :
    (s.nextTurn = .engine ∧ s.phase = .busy) ∨
    (s.nextTurn = .host ∧ ∃ addr size v rest, s.program = .wr addr size v :: rest ∧ addr = s.params.base + 0x04) := by
  rcases step_cases h with ⟨_, _, u, _, rfl⟩ | ⟨_, _, rfl⟩ | ⟨_, rfl⟩ | ⟨_, rfl⟩ | ⟨_, hn, hturn⟩ | ⟨_, hn, hturn⟩ |
    ⟨_, k, _, rfl⟩
  · exact absurd (resetBlock_noIrqRise s u) hrise
  · exact absurd (resetBlock_noIrqRise s _) hrise
  · exact absurd (resetBlock_noIrqRise s s.popTurn) hrise
  · exact absurd (releaseReset_noIrqRise s.popTurn) hrise
  · exact .inr ⟨hn, hostTurn_irq_rise (s := s.popTurn) hturn hrise⟩
  · exact .inl ⟨hn, engineTurn_irq_rise (s := s.popTurn) hturn hrise⟩
  · exact absurd (initialise_noIrqRise k s.popTurn) hrise

/-- Settles O55: IRQ is DONE under its mask, each event acts on one of the two, and of all steps only two kinds raise
it. -/
theorem irqEvents : Obligations.IrqEvents := by
  refine ⟨fun _ => rfl, fun s t hr hb hn h => ?completion, fun s v hv => ?clear, fun s w hs => ?accept,
    fun s v hv => ?mask, fun s t h hlow hhigh => ?rise⟩
  case completion =>
    have hdone := step_completion_done hr hb hn h
    exact ⟨hdone, irq_of_done hdone⟩
  case clear =>
    have hwrite : s.regWrite 0x00 v = s.writeStatus v := regWrite_unguarded (r := .status) rfl v s
    have hdone := writeStatus_done_of_bit hv s
    rw [hwrite]
    exact ⟨hdone, irq_of_not_done hdone⟩
  case accept =>
    have hwrite : s.regWrite 0x08 w = s.accept w := regWrite_idle hs .cmd w
    rw [hwrite]
    exact ⟨rfl, rfl⟩
  case mask =>
    have hwrite : s.regWrite 0x04 v = { s with ie := v.getLsbD 0 } := regWrite_unguarded (r := .ctrl) rfl v s
    rw [hwrite]
    exact ⟨rfl, irq_of_masked hv⟩
  case rise =>
    refine step_irq_rise h fun hno => ?_
    simp [hno hhigh] at hlow

end Sys2Proof.Machine
end

section
/-! PROOFS. A word decodes to a command exactly when it is that command's word; the forms of the assembler
(spec/30_encoding.md R101 to R106). -/

namespace Sys2Proof

/-! ## Words by their fields -/

/-- The four fields make up the word (R101). -/
theorem fields_append (w : Word) : rsv w ++ opb w ++ opa w ++ opc w = w := by
  have hjoin (start len : Nat) :
      w.extractLsb' (start + 8) len ++ w.extractLsb' start 8 = w.extractLsb' start (len + 8) :=
    BitVec.extractLsb'_append_extractLsb'_eq_extractLsb' rfl
  rw [rsv, opb, opa, opc, hjoin 16 8, hjoin 8 16, hjoin 0 24]
  exact BitVec.extractLsb'_eq_self

theorem word_eq_iff_fields (w v : Word) :
    w = v ↔ opc w = opc v ∧ opa w = opa v ∧ opb w = opb v ∧ rsv w = rsv v := by
  constructor
  · rintro rfl
    exact ⟨rfl, rfl, rfl, rfl⟩
  · rintro ⟨hopc, hopa, hopb, hrsv⟩
    rw [← fields_append w, hopc, hopa, hopb, hrsv, fields_append]

theorem eq_commandWord_iff (w : Word) (o a b : Byte) :
    w = commandWord o a b ↔ opc w = o ∧ opa w = a ∧ opb w = b ∧ rsv w = 0#8 := by
  rw [word_eq_iff_fields, opc_commandWord, opa_commandWord, opb_commandWord, rsv_commandWord]

/-- A match under a mask, field by field. -/
theorem and_eq_iff_fields (w m p : Word) :
    w &&& m = p ↔
      opc w &&& opc m = opc p ∧ opa w &&& opa m = opa p ∧ opb w &&& opb m = opb p ∧ rsv w &&& rsv m = rsv p := by
  simp only [word_eq_iff_fields, opc, opa, opb, rsv, BitVec.extractLsb'_and]

/-! ## Decoding inverts encoding -/

theorem byte_and_allOnes (x : Byte) : x &&& 255#8 = x := BitVec.and_allOnes

/-- A row's mask leaves a field whole, to match what the command's word holds there, or drops it, and then it holds an
operand (R102, R103). -/
theorem selectsCommand_iff_eq_encode (w : Word) (i : Instr) : SelectsCommand w i ↔ w = encode i := by
  cases i with
  | nop | mac | combine | clry | clrc | clrkey =>
    rw [SelectsCommand, encode, eq_commandWord_iff, and_eq_iff_fields]
    simp [opc, opa, opb, rsv, byte_and_allOnes]
  | mul a b =>
    rw [SelectsCommand, encode, eq_commandWord_iff, and_eq_iff_fields, eq_comm (a := a), eq_comm (a := b)]
    simp [opc, opa, opb, rsv, byte_and_allOnes, and_assoc, and_comm, and_left_comm]
  | verify t =>
    rw [SelectsCommand, encode, eq_commandWord_iff, and_eq_iff_fields, eq_comm (a := t)]
    simp [opc, opa, opb, rsv, byte_and_allOnes, and_comm, and_left_comm]

theorem decode_eq_ok_iff_eq_encode (w : Word) (i : Instr) : decode w = .ok i ↔ w = encode i :=
  (decode_eq_ok_iff_selectsCommand w i).trans (selectsCommand_iff_eq_encode w i)

/-- Settles O1: the word of a command is among those that decode to it. -/
theorem encodeThenDecode : Obligations.EncodeThenDecode := fun i =>
  (decode_eq_ok_iff_eq_encode (encode i) i).mpr rfl

/-- Settles O2: no other word decodes to the command. -/
theorem decodeThenEncode : Obligations.DecodeThenEncode := fun w i h =>
  ((decode_eq_ok_iff_eq_encode w i).mp h).symm

/-- Settles O4: two rows that a word selects have its opcode both, and the opcodes of the rows differ. -/
theorem opcodeRowsAreDisjoint : Obligations.OpcodeRowsAreDisjoint := by
  have hdistinct : opcodeMap.Pairwise (fun r r' => opc r.pattern ≠ opc r'.pattern) := List.pairwise_map.mp (by decide)
  refine hdistinct.imp_of_mem fun hr hr' hne w ⟨hw, hw'⟩ => hne ?_
  rw [← opc_eq_of_selects hr hw, opc_eq_of_selects hr' hw']

/-- Settles O5: the legal words are words of commands; the illegal ones are run through the decoder. -/
theorem sampleWordsDecode : Obligations.SampleWordsDecode :=
  ⟨encodeThenDecode .nop, encodeThenDecode (.mul 0x80#8 0x02#8), encodeThenDecode .mac,
    encodeThenDecode (.verify 0xDB#8), encodeThenDecode .combine, encodeThenDecode .clry, encodeThenDecode .clrc,
    encodeThenDecode .clrkey, rfl, rfl, rfl⟩

/-! ## The assembler -/

/-- A command word by its value: `(b << 16) | (a << 8) | opcode` (R106). -/
theorem toNat_commandWord (o a b : Byte) :
    (commandWord o a b).toNat = b.toNat * 65536 + a.toNat * 256 + o.toNat := by
  have hword : commandWord o a b = 0#8 ++ b ++ a ++ o := by
    rw [← fields_append (commandWord o a b), opc_commandWord, opa_commandWord, opb_commandWord, rsv_commandWord]
  have hjoin (x y : Nat) (hy : y < 2 ^ 8) : x <<< 8 ||| y = x * 256 + y := by
    rw [← Nat.shiftLeft_add_eq_or_of_lt hy, Nat.shiftLeft_eq]
  rw [hword]
  simp only [BitVec.toNat_append, hjoin _ _ (BitVec.isLt _), BitVec.toNat_ofNat]
  omega

theorem assemble_mul {a b : Nat} (ha : a < 256) (hb : b < 256) :
    assemble ⟨.mul, [a, b]⟩ = some (.mul (BitVec.ofNat 8 a) (BitVec.ofNat 8 b)) := by
  simp [assemble, AsmLine.wellFormed, AsmLine.arityOk, AsmLine.rangeOk, Mnemonic.arity, ha, hb]

theorem assemble_verify {t : Nat} (ht : t < 256) :
    assemble ⟨.verify, [t]⟩ = some (.verify (BitVec.ofNat 8 t)) := by
  simp [assemble, AsmLine.wellFormed, AsmLine.arityOk, AsmLine.rangeOk, Mnemonic.arity, ht]

/-- An operand above 255 is an assembly error (R106). -/
theorem assemble_of_operand_large {m : Mnemonic} {ops : List Nat} {x : Nat} (hmem : x ∈ ops) (hx : 255 < x) :
    assemble ⟨m, ops⟩ = none := by
  have hrange : AsmLine.rangeOk ⟨m, ops⟩ = false :=
    List.all_eq_false.mpr ⟨x, hmem, by simp; omega⟩
  simp [assemble, AsmLine.wellFormed, hrange]

/-- Settles O6: a line of the right form with operands in range is assembled, and the word's value is that of its
fields. -/
theorem assemblerForms : Obligations.AssemblerForms := by
  refine ⟨rfl, fun a b ha hb => ?mul, rfl, fun t ht => ?verify, rfl, rfl, rfl, rfl, fun a b hlarge => ?mulLarge,
    fun t hlarge => assemble_of_operand_large (List.mem_singleton_self t) hlarge⟩
  case mul =>
    rw [assemble_mul ha hb]
    simp [encode, toNat_commandWord, Nat.mod_eq_of_lt ha, Nat.mod_eq_of_lt hb]
  case verify =>
    rw [assemble_verify ht]
    simp [encode, toNat_commandWord, Nat.mod_eq_of_lt ht]
  case mulLarge =>
    rcases hlarge with h | h
    · exact assemble_of_operand_large (by simp) h
    · exact assemble_of_operand_large (by simp) h

end Sys2Proof
end

section
/-! PROOFS. Every step keeps the invariant, agent by agent, and the machine after reset meets it (spec/10_state.md R53;
spec/70_reset_and_hazards.md R260). -/

namespace Sys2Proof.Machine

theorem popTurn_inv {s : State} (hs : s.Inv) : s.popTurn.Inv := { hs with }

/-- With reset released nothing is asked of the block. -/
theorem held_of_released {s : State} {P : Prop} (hr : s.resetIn = false) (hheld : s.resetIn = true) : P := by
  simp [hr] at hheld

theorem regWrite_inv {s : State} (hs : s.Inv) (hr : s.resetIn = false) (off : Nat) (v : Word) :
    (s.regWrite off v).Inv := by
  rcases regWrite_cases off v s with ⟨_, e⟩ | ⟨_, _, _, _, e⟩ | ⟨r, _, htakes, e⟩ <;> rw [e]
  · exact hs
  · exact { hs with reset_held := held_of_released hr }
  · exact writeReg_inv r v s hs hr htakes

theorem hostTurn_inv {s t : State} (hs : s.Inv) (hr : s.resetIn = false) (h : hostTurn s = .next t) : t.Inv := by
  rcases hostTurn_cases h with ⟨_, rfl⟩ | ⟨_, _, v, rest, off, _, _, rfl⟩ | ⟨off, rest, _, rfl⟩
  · exact hs
  · have hprogram : State.Inv { s with program := rest } := { hs with }
    exact regWrite_inv hprogram hr off v
  · exact { hs with }

/-- What the three clearing commands leave is empty, and so within its bounds (R211 to R213). -/
theorem exec_inv {i : Instr} {s t : State} (hs : s.Inv) (hr : s.resetIn = false) (h : exec i s = .next t) : t.Inv := by
  rcases exec_cases i s with ⟨u, hu, _, hend⟩ | ⟨_, e⟩ | ⟨_, e⟩ | ⟨_, e⟩
  case inl =>
    have huInv : u.Inv := supplierOnly_inv s u hs hu
    have huReleased : u.resetIn = false := by rw [hu.eq]; exact hr
    rcases hend with ⟨v, e⟩ | ⟨c, _, e⟩ <;> obtain rfl := Host.Outcome.next.inj (e.symm.trans h)
    · exact finishOk_inv v u huInv huReleased
    · exact finishErr_inv c u huInv huReleased
  all_goals
    obtain rfl := Host.Outcome.next.inj (e.symm.trans h)
    refine finishOk_inv _ _ ?_ hr
  · exact { hs with reset_held := held_of_released hr, ybuf_inv := buffer_empty_inv _ }
  · exact
      { hs with
        reset_held := held_of_released hr, tbuf_inv := buffer_empty_inv _, abuf_inv := buffer_empty_inv _ }
  · exact { hs with reset_held := held_of_released hr, k1_inv := keyStore_empty_inv, k2_inv := keyStore_empty_inv }

theorem engineTurn_inv {s t : State} (hs : s.Inv) (hr : s.resetIn = false) (h : engineTurn s = .next t) : t.Inv := by
  rcases engineTurn_cases s with ⟨_, e⟩ | ⟨_, i, _, e⟩ | ⟨_, _, _, e⟩
  · exact Host.Outcome.next.inj (e.symm.trans h) ▸ hs
  · exact exec_inv hs hr (e.symm.trans h)
  · exact Host.Outcome.next.inj (e.symm.trans h) ▸ finishErr_inv _ s hs hr

/-- Settles O60: with reset released each agent's turn keeps the invariant; under reset the block is at its reset
values, which meet it. -/
theorem stepKeepsInv : Obligations.StepKeepsInv := by
  intro s t hs h
  have hpop := popTurn_inv hs
  rcases step_cases h with ⟨_, _, u, hturn, rfl⟩ | ⟨_, _, rfl⟩ | ⟨_, rfl⟩ | ⟨_, rfl⟩ | ⟨hr, _, hturn⟩ |
    ⟨hr, _, hturn⟩ | ⟨hr, k, _, rfl⟩
  · have hblock := resetBlock_inv _ (resetBlock_inv _ hpop)
    rw [hostTurn_resetBlock hturn]
    exact { hblock with }
  · exact resetBlock_inv _ hpop
  · exact assertReset_inv _ hpop
  · exact releaseReset_inv _ hpop
  · exact hostTurn_inv hpop hr hturn
  · exact engineTurn_inv hpop hr hturn
  · exact initialise_inv k _ hpop hr

/-- The free parameters of the machine after reset are legal (R8). -/
theorem config_params_wellFormed : Config.params.wellFormed = true := by
  have hbase : Config.params.baseOk = true := beq_iff_eq.mpr (Nat.mul_mod_right ..)
  have hvmax : Config.params.vmaxOk = true :=
    Bool.and_eq_true_iff.mpr ⟨decide_eq_true (Nat.le_add_left ..), decide_eq_true Config.vmaxIndex.isLt⟩
  have hcmax : Config.params.cmaxOk = true :=
    Bool.and_eq_true_iff.mpr ⟨decide_eq_true (Nat.le_add_left ..), decide_eq_true Config.cmaxIndex.isLt⟩
  rw [Params.wellFormed, hbase, hvmax, hcmax]
  rfl

/-- Settles O59: reset leaves the block at its reset values, for legal parameters. -/
theorem invAtReset : Obligations.InvAtReset :=
  ⟨blockAtReset_inv _ config_params_wellFormed (resetBlock_blockAtReset State.reset), rfl⟩

/-! ## The table initialiser -/

/-- Reset changes nothing of a block that is at its reset values. -/
theorem resetBlock_of_blockAtReset {s : State} (h : s.BlockAtReset) : s.resetBlock = s := by
  obtain ⟨h1, h2, h3, h4, h5, h6, h7, h8, h9, h10, h11, h12, h13, h14, h15, h16, h17, h18, h19, h20, h21, h22, h23⟩ := h
  cases s
  simp_all [State.resetBlock, State.reset]

theorem step_initialiser_held {s : State} {k : Nat} (hr : s.resetIn = true) (hn : s.nextTurn = .initialiser k) :
    step s = .next s.popTurn.resetBlock := by
  simp [step, runTurn, hn, hr]

/-- The initialiser's turn, whether or not the table is already complete (R133). -/
theorem initialise_of_inv {s : State} (hs : s.Inv) (k : Nat) :
    s.initialise k =
      { s with lutWritten := min lutSize (s.lutWritten + k), ready := decide (lutSize ≤ s.lutWritten + k) } := by
  cases hready : s.ready with
  | false => simp [State.initialise, hready]
  | true =>
    have hcomplete : s.lutWritten = lutSize := hs.ready_iff.mp hready
    rw [initialise_of_ready hready, hcomplete, Nat.min_eq_left (Nat.le_add_right ..),
      decide_eq_true (Nat.le_add_right ..), ← hcomplete, ← hready]

/-- Settles O18: with reset released the turn is `initialise`; an asserted reset holds a block that is already at its
reset values. -/
theorem initialiserBuildsTable : Obligations.InitialiserBuildsTable := by
  refine fun s k hs hn => ⟨fun hr => ?released, fun hr => ?held⟩
  case released =>
    refine ⟨_, step_initialiser hr hn, ?_⟩
    rw [initialise_of_inv (popTurn_inv hs)]
    exact ⟨rfl, decide_eq_true_iff, rfl⟩
  case held =>
    rw [step_initialiser_held hr hn, resetBlock_of_blockAtReset (s := s.popTurn) (hs.reset_held hr)]
    rfl

/-- Settles O19: every other step leaves the table and READY alone. -/
theorem onlyInitialiserChangesTable : Obligations.OnlyInitialiserChangesTable := by
  intro s t h hchanged
  by_contra hother
  rw [not_or, not_exists, Bool.not_eq_true] at hother
  obtain ⟨hinit, hreset⟩ := hother
  have hsame := step_sameTable h hreset hinit
  rcases hchanged with hready | hwritten
  · exact hready hsame.ready
  · exact hwritten hsame.lutWritten

end Sys2Proof.Machine
end

section
/-! PROOFS. The life of a command: its acceptance, the step that runs it, how it ends and what it leaves unchanged
(spec/10_state.md R44 to R48; spec/30_encoding.md R104; spec/45_housekeeping.md). -/

namespace Sys2Proof.Machine

/-! ## Acceptance and the engine's step -/

/-- Settles O7: an idle block takes the write, and a write of CMD is the acceptance. -/
theorem commandAcceptance : Obligations.CommandAcceptance := fun _ w hs => regWrite_idle hs .cmd w

theorem engineTurn_of_decode_ok {s : State} {i : Instr} (hb : s.phase = .busy) (hd : decode s.cmdl = .ok i) :
    engineTurn s = exec i s := by
  simp [engineTurn, hb, hd]

theorem engineTurn_of_decode_error {s : State} {e : DecodeError} (hb : s.phase = .busy)
    (hd : decode s.cmdl = .error e) : engineTurn s = .next (s.finishErr .illegalCommand) := by
  simp [engineTurn, hb, hd]

/-- Settles O8: the engine decodes the word in flight and runs its command. -/
theorem stepRunsDecodedCommand : Obligations.StepRunsDecodedCommand := fun s _ hr hb hn hd =>
  (step_engine hr hn).trans (engineTurn_of_decode_ok (s := s.popTurn) hb hd)

/-- Settles O10: the engine finds no command in the word in flight. -/
theorem illegalWordCompletes : Obligations.IllegalWordCompletes := fun s _ hr hb hn hd =>
  (step_engine hr hn).trans (engineTurn_of_decode_error (s := s.popTurn) hb hd)

/-- A 32-bit word given as table bits is the word itself. -/
theorem tableWord_of_lt {w : Nat} (hw : w < 2 ^ 32) : tableWord 32 w = BitVec.ofNat 32 w := by
  rw [tableWord, Nat.mod_eq_of_lt hw]

/-- Settles O9: the placed word is in flight, reset is released and the engine's turn is next. -/
theorem placedWordRunsNext : Obligations.PlacedWordRunsNext := by
  intro s w i hw hd
  rw [← tableWord_of_lt hw] at hd ⊢
  exact stepRunsDecodedCommand (s.withFetchWord 32 w) i rfl rfl rfl hd

/-! ## The end of a command -/

/-- Settles O11: `finishOk` shows a result and no error, `finishErr` an error and no result. -/
theorem everyCommandCompletes : Obligations.EveryCommandCompletes := by
  intro i s
  rcases exec_cases i s with ⟨u, _, _, ⟨v, e⟩ | ⟨c, hc, e⟩⟩ | ⟨_, e⟩ | ⟨_, e⟩ | ⟨_, e⟩
  case inl.inr => exact ⟨_, e, rfl, rfl, .inr ⟨rfl, ne_noError_of_mem_commandCodes hc, rfl⟩⟩
  all_goals exact ⟨_, e, rfl, rfl, .inl ⟨rfl, rfl⟩⟩

/-- Settles O39: the four commands complete with `finishOk` after their clearing and test nothing. -/
theorem housekeepingCompletes : Obligations.HousekeepingCompletes := fun _ => ⟨rfl, rfl, rfl, rfl⟩

/-! ## The frame of a command -/

/-- The fields that no command changes: all but the stores that some command clears, the completion's report and the
supplier's side (R45, R52, R160). -/
theorem exec_frame {i : Instr} {s t : State} (h : exec i s = .next t) :
    t = { s with
      k1 := t.k1, k2 := t.k2, ybuf := t.ybuf, tbuf := t.tbuf, abuf := t.abuf,
      phase := t.phase, done := t.done, rvalid := t.rvalid, err := t.err, result := t.result,
      requests := t.requests, draws := t.draws, drawn := t.drawn } := by
  rcases exec_cases i s with ⟨u, hu, _, ⟨v, e⟩ | ⟨c, _, e⟩⟩ | ⟨_, e⟩ | ⟨_, e⟩ | ⟨_, e⟩ <;>
    obtain rfl := Host.Outcome.next.inj (e.symm.trans h)
  · rw [hu.eq]; rfl
  · rw [hu.eq]; rfl
  all_goals rfl

/-- Each of the three clearing commands empties its own stores and no others (R211 to R213). -/
theorem exec_stores {i : Instr} {s t : State} (h : exec i s = .next t) :
    (i ≠ .clrkey → t.k1 = s.k1 ∧ t.k2 = s.k2) ∧ (i ≠ .clry → t.ybuf = s.ybuf) ∧
      (i ≠ .clrc → t.tbuf = s.tbuf ∧ t.abuf = s.abuf) := by
  rcases exec_cases i s with ⟨u, hu, _, ⟨v, e⟩ | ⟨c, _, e⟩⟩ | ⟨rfl, e⟩ | ⟨rfl, e⟩ | ⟨rfl, e⟩ <;>
    obtain rfl := Host.Outcome.next.inj (e.symm.trans h)
  · rw [hu.eq]; exact ⟨fun _ => ⟨rfl, rfl⟩, fun _ => rfl, fun _ => ⟨rfl, rfl⟩⟩
  · rw [hu.eq]; exact ⟨fun _ => ⟨rfl, rfl⟩, fun _ => rfl, fun _ => ⟨rfl, rfl⟩⟩
  · exact ⟨fun _ => ⟨rfl, rfl⟩, fun hne => absurd rfl hne, fun _ => ⟨rfl, rfl⟩⟩
  · exact ⟨fun _ => ⟨rfl, rfl⟩, fun _ => rfl, fun hne => absurd rfl hne⟩
  · exact ⟨fun hne => absurd rfl hne, fun _ => rfl, fun _ => ⟨rfl, rfl⟩⟩

/-- Only MAC and VERIFY use the keystream port (R160). -/
theorem exec_supplier {i : Instr} {s t : State} (h : exec i s = .next t) (hi : i ≠ .mac ∧ ∀ c, i ≠ .verify c) :
    t.requests = s.requests ∧ t.draws = s.draws ∧ t.drawn = s.drawn := by
  rcases exec_cases i s with ⟨u, _, hu, ⟨v, e⟩ | ⟨c, _, e⟩⟩ | ⟨_, e⟩ | ⟨_, e⟩ | ⟨_, e⟩ <;>
    obtain rfl := Host.Outcome.next.inj (e.symm.trans h)
  · obtain rfl := hu hi; exact ⟨rfl, rfl, rfl⟩
  · obtain rfl := hu hi; exact ⟨rfl, rfl, rfl⟩
  all_goals exact ⟨rfl, rfl, rfl⟩

/-- Settles O14: nineteen fields are in the frame of every command; the stores and the port have their own lemmas. -/
theorem commandFrame : Obligations.CommandFrame := by
  intro i s t h
  obtain ⟨hkeys, hy, hc⟩ := exec_stores h
  have hport := exec_supplier h
  rw [exec_frame h]
  exact ⟨rfl, rfl, rfl, rfl, rfl, rfl, rfl, rfl, rfl, rfl, rfl, rfl, rfl, rfl, rfl, rfl, rfl, rfl, rfl, hkeys, hy, hc,
    hport⟩

end Sys2Proof.Machine
end

section
/-! PROOFS. The results of the commands that compute: MUL, MAC, VERIFY and COMBINE, and a keystream that fails
(spec/40_field.md R136; spec/41_keystream.md R158 to R161; spec/42_mac.md R170; spec/43_combine.md R190, R193). -/

namespace Sys2Proof.Machine

/-- Settles O20: with RA = 1 the table is complete, and a complete table reads as the product. -/
theorem mulCompletes : Obligations.MulCompletes := by
  intro s a b hs hra
  have hlut : s.lutRead = gmul := lutRead_ready s hs (hs.ra_ready hra)
  change Host.Outcome.next (if s.ra then s.finishOk (s.lutRead a b) else s.finishErr .notReady) = _
  rw [if_pos hra, hlut]
  rfl

/-! ## MAC and VERIFY -/

/-- The shared completion with every field written out, all requests of the tag having been issued. -/
theorem completeTag_ok_eq {s : State} (hs : s.Inv) (hra : s.ra = true) (hin : s.TagInputsOk)
    (hdraw : ∀ k, k ≤ s.m.toNat → s.draw k = false) (value : Byte → Byte) :
    s.completeTag value =
      { s with
        result := value s.tagOf, rvalid := true, err := .noError, phase := .idle, done := true,
        requests := s.requests ++ s.tagRequests,
        draws := s.draws.drop (s.m.toNat + 1), drawn := s.drawn + (s.m.toNat + 1 - s.draws.length) } := by
  rw [completeTag_ok hs hra hin hdraw, State.afterRequests, tagRequests_length]
  rfl

/-- Settles O23: MAC's result is the tag itself. -/
theorem macCompletes : Obligations.MacCompletes := fun _ hs hra hin hdraw =>
  congrArg Host.Outcome.next (completeTag_ok_eq hs hra hin hdraw id)

/-- Settles O24: VERIFY's result is the match bit of the tag. -/
theorem verifyCompletes : Obligations.VerifyCompletes := fun _ c hs hra hin hdraw =>
  congrArg Host.Outcome.next (completeTag_ok_eq hs hra hin hdraw (matchBit c))

/-- The shared completion when a request is the first answered Fail (R159). -/
theorem completeTag_crypto_failure {s : State} {k : Nat} (hra : s.ra = true) (hin : s.TagInputsOk)
    (hk : k ≤ s.m.toNat) (hok : ∀ j, j < k → s.draw j = false) (hfail : s.draw k = true) (value : Byte → Byte) :
    s.completeTag value = (s.afterRequests (s.tagRequests.take (k + 1))).finishErr .cryptoFailure := by
  have hcheck := (checkTagInputs_none_iff s).mpr hin
  simp only [State.completeTag, hra, hcheck, queryKeystream_fail s k hk hok hfail, Bool.not_true,
    Bool.false_eq_true, if_false]

theorem length_take_tagRequests {s : State} {k : Nat} (hk : k ≤ s.m.toNat) :
    (s.tagRequests.take (k + 1)).length = k + 1 :=
  List.length_take_of_le (by rw [tagRequests_length]; omega)

/-- After the PRG request every request of a tag is a PRF request (R158). -/
theorem countP_prf_take_tagRequests {s : State} {k : Nat} (hk : k ≤ s.m.toNat) :
    (s.tagRequests.take (k + 1)).countP (fun q => decide (q.kind = .prf)) = k := by
  have hprf : ∀ q ∈ ((List.range' 0 s.m.toNat).map s.prfRequest).take k, decide (q.kind = .prf) = true := by
    intro q hq
    obtain ⟨j, _, rfl⟩ := List.mem_map.mp (List.mem_of_mem_take hq)
    rfl
  rw [tagRequests_eq, List.take_succ_cons, List.countP_cons_of_neg (by simp [State.prgRequest]),
    List.countP_eq_length.mpr hprf]
  exact List.length_take_of_le (by simpa using hk)

/-- Settles O25: the keystream ends at the failed request, which is the last one issued. -/
theorem firstFailEndsTheCommand : Obligations.FirstFailEndsTheCommand := by
  intro s c k hra hin hk hok hfail t
  have hlen := length_take_tagRequests hk
  have hcomplete (value : Byte → Byte) : s.completeTag value = t := by
    rw [completeTag_crypto_failure hra hin hk hok hfail, State.afterRequests, hlen]
    rfl
  have hissued : t.requests.drop s.requests.length = s.tagRequests.take (k + 1) := List.drop_left
  rw [hissued]
  exact ⟨congrArg Host.Outcome.next (hcomplete id), congrArg Host.Outcome.next (hcomplete (matchBit c)), hlen,
    countP_prf_take_tagRequests hk⟩

/-! ## COMBINE -/

/-- Settles O34: the list of products is summed by indexes. -/
theorem combineCompletes : Obligations.CombineCompletes := by
  intro s hs hra ht ha hlen
  rw [exec_combine_ok hs hra (checkCombineInputs_none ht ha hlen), xorProducts_eq_xorOver gmul _ _ hlen.symm, ← hlen]
  rfl

theorem exec_combine_check {s : State} (hra : s.ra = true) {e : ErrCode} (he : s.checkCombineInputs = some e) :
    exec .combine s = .next (s.finishErr e) := by
  simp [exec, execCombine, hra, he]

theorem checkCombineInputs_overflow {s : State} (h : s.tbuf.ovf = true ∨ s.abuf.ovf = true) :
    s.checkCombineInputs = some .capacityExceeded :=
  if_pos (Bool.or_eq_true_iff.mpr h)

theorem checkCombineInputs_mismatch {s : State} (ht : s.tbuf.ovf = false) (ha : s.abuf.ovf = false)
    (hlen : s.tbuf.elems.length ≠ s.abuf.elems.length) : s.checkCombineInputs = some .vectorLengthMismatch := by
  simp [State.checkCombineInputs, Buffer.len, ht, ha, hlen]

/-- Settles O35: readiness, then the two checks in their order. -/
theorem combineChecks : Obligations.CombineChecks := fun _ =>
  ⟨fun hra => exec_combine_not_ready hra, fun hra h => exec_combine_check hra (checkCombineInputs_overflow h),
    fun hra ht ha hlen => exec_combine_check hra (checkCombineInputs_mismatch ht ha hlen)⟩

/-- Settles O37: RA and the buffers decide which of the three ends COMBINE takes, and the sum when it succeeds. -/
theorem combineNeedsNoKey : Obligations.CombineNeedsNoKey := by
  intro s s' t t' hs hs' hra ht ha h h'
  cases hready : s.ra with
  | false =>
    obtain rfl := Host.Outcome.next.inj ((exec_combine_not_ready hready).symm.trans h)
    obtain rfl := Host.Outcome.next.inj ((exec_combine_not_ready (hra ▸ hready)).symm.trans h')
    exact ⟨rfl, rfl, rfl⟩
  | true =>
    have hready' : s'.ra = true := hra ▸ hready
    have hcheck : s.checkCombineInputs = s'.checkCombineInputs := by
      rw [State.checkCombineInputs, State.checkCombineInputs, ht, ha]
    cases hc : s.checkCombineInputs with
    | some e =>
      obtain rfl := Host.Outcome.next.inj ((exec_combine_check hready hc).symm.trans h)
      obtain rfl := Host.Outcome.next.inj ((exec_combine_check hready' (hcheck ▸ hc)).symm.trans h')
      exact ⟨rfl, rfl, rfl⟩
    | none =>
      obtain rfl := Host.Outcome.next.inj ((exec_combine_ok hs hready hc).symm.trans h)
      obtain rfl := Host.Outcome.next.inj ((exec_combine_ok hs' hready' (hcheck ▸ hc)).symm.trans h')
      rw [ht, ha]
      exact ⟨rfl, rfl, rfl⟩

end Sys2Proof.Machine
end

section
/-! PROOFS. The product of the field is the carry-less product modulo the polynomial 0x11B: both are linear in each
operand, so the powers of x decide (spec/40_field.md R130). -/

namespace Sys2Proof.Machine

/-! ## The carry-less product -/

/-- The product of a polynomial and one of degree below 8, over GF(2) and within 16 bits. -/
def clmul (x : BitVec 16) (b : Byte) : BitVec 16 :=
  (List.range 8).foldl (fun acc i => if b.getLsbD i then acc ^^^ (x <<< i) else acc) 0#16

theorem foldl_xor_of_step {f g h : BitVec 16 → Nat → BitVec 16}
    (hstep : ∀ p q i, f (p ^^^ q) i = g p i ^^^ h q i) (l : List Nat) (p q : BitVec 16) :
    l.foldl f (p ^^^ q) = l.foldl g p ^^^ l.foldl h q := by
  induction l generalizing p q with
  | nil => rfl
  | cons i l ih => rw [List.foldl_cons, List.foldl_cons, List.foldl_cons, hstep, ih]

theorem clmul_xor_left (x y : BitVec 16) (b : Byte) : clmul (x ^^^ y) b = clmul x b ^^^ clmul y b := by
  refine foldl_xor_of_step (fun p q i => ?_) _ 0#16 0#16
  split
  · rw [BitVec.shiftLeft_xor_distrib]; ac_rfl
  · rfl

theorem clmul_xor_right (x : BitVec 16) (b c : Byte) : clmul x (b ^^^ c) = clmul x b ^^^ clmul x c := by
  refine foldl_xor_of_step (fun p q i => ?_) _ 0#16 0#16
  rw [BitVec.getLsbD_xor]
  cases b.getLsbD i <;> cases c.getLsbD i
  case false.false => rfl
  case false.true => exact BitVec.xor_assoc ..
  case true.false =>
    change (p ^^^ q) ^^^ x <<< i = (p ^^^ x <<< i) ^^^ q
    ac_rfl
  case true.true =>
    calc p ^^^ q = (p ^^^ q) ^^^ (x <<< i ^^^ x <<< i) := by rw [BitVec.xor_self, BitVec.xor_zero]
      _ = (p ^^^ x <<< i) ^^^ (q ^^^ x <<< i) := by ac_rfl

/-! ## Reduction by the polynomial -/

/-- The carry-less product of `a` and `b` is gmul(a, b) and a multiple of the polynomial (R130). -/
def ReducesToGmul (a b : Byte) : Prop :=
  ∃ q : Byte, clmul (a.setWidth 16) b = (gmul a b).setWidth 16 ^^^ clmul 0x11B#16 q

theorem ReducesToGmul.xor_left {a b c : Byte} (ha : ReducesToGmul a c) (hb : ReducesToGmul b c) :
    ReducesToGmul (a ^^^ b) c := by
  obtain ⟨p, hp⟩ := ha
  obtain ⟨q, hq⟩ := hb
  refine ⟨p ^^^ q, ?_⟩
  rw [BitVec.setWidth_xor, clmul_xor_left, hp, hq, xor_gmul, BitVec.setWidth_xor, clmul_xor_right]
  ac_rfl

theorem ReducesToGmul.xor_right {a b c : Byte} (hb : ReducesToGmul a b) (hc : ReducesToGmul a c) :
    ReducesToGmul a (b ^^^ c) := by
  obtain ⟨p, hp⟩ := hb
  obtain ⟨q, hq⟩ := hc
  refine ⟨p ^^^ q, ?_⟩
  rw [clmul_xor_right, hp, hq, gmul_xor, BitVec.setWidth_xor, clmul_xor_right]
  ac_rfl

/-- A byte is the sum of the powers of x at its set bits. -/
theorem byte_eq_xorOver : ∀ a : Byte, a = xorOver 8 (fun i => if a.getLsbD i then 1#8 <<< i else 0#8) := by
  decide +kernel

/-- A property that sums keep holds of every byte when it holds of the powers of x. -/
theorem byte_induction {P : Byte → Prop} (hxor : ∀ a b, P a → P b → P (a ^^^ b))
    (hpower : ∀ i, i < 8 → P (1#8 <<< i)) (a : Byte) : P a := by
  have hzero : P 0#8 := hxor _ _ (hpower 0 (by decide)) (hpower 0 (by decide))
  have hsum (k : Nat) (hk : k ≤ 8) : P (xorOver k (fun i => if a.getLsbD i then 1#8 <<< i else 0#8)) := by
    induction k with
    | zero => exact hzero
    | succ k ih =>
      rw [xorOver_succ]
      refine hxor _ _ (ih (by omega)) ?_
      split
      · exact hpower k hk
      · exact hzero
  exact byte_eq_xorOver a ▸ hsum 8 (Nat.le_refl 8)

/-- The quotient of x^k by the polynomial: each shift brings in the bit that `xtime` reduces. -/
def powerQuotient : (k : Nat) → Byte
  | 0 => 0#8
  | k + 1 => (powerQuotient k <<< 1) ^^^ if (xtime^[k] 1#8).getLsbD 7 then 1#8 else 0#8

theorem clmul_powers : ∀ i, i < 8 → ∀ j, j < 8 →
    clmul ((1#8 <<< i).setWidth 16) (1#8 <<< j) =
      (gmul (1#8 <<< i) (1#8 <<< j)).setWidth 16 ^^^ clmul 0x11B#16 (powerQuotient (i + j)) := by
  decide +kernel

/-- Settles O16: the reduction holds of the products of powers of x, and both products are linear. -/
theorem gmulIsProductModuloPolynomial : Obligations.GmulIsProductModuloPolynomial := by
  change ∀ a b, ReducesToGmul a b
  refine byte_induction (fun a b ha hb c => (ha c).xor_left (hb c)) fun i hi => ?_
  exact byte_induction (fun b c => ReducesToGmul.xor_right) fun j hj => ⟨_, clmul_powers i hi j hj⟩

end Sys2Proof.Machine
end

section
/-! PROOFS. The registers as a host reads them, field by field, and that no secret is among the fields
(spec/10_state.md R33 to R43; spec/20_memory.md R71, R74). -/

namespace Sys2Proof.Machine

/-! ## The fields of a word -/

/-- A field read back at its own place. -/
theorem extractLsb'_field {n k : Nat} (x : BitVec n) (h : k + n ≤ 32) :
    (x.setWidth 32 <<< k).extractLsb' k n = x := by
  refine BitVec.eq_of_getLsbD_eq fun i hi => ?_
  simp [hi, show k + i < 32 by omega]

/-- A field does not show where it does not stand. -/
theorem extractLsb'_field_of_disjoint {n k start len : Nat} (x : BitVec n) (h : start + len ≤ k ∨ k + n ≤ start) :
    (x.setWidth 32 <<< k).extractLsb' start len = 0#len := by
  refine BitVec.eq_of_getLsbD_eq fun i hi => ?_
  rcases h with hbelow | habove
  · simp [show start + i < k by omega]
  · simp [BitVec.getLsbD_of_ge x (start + i - k) (by omega)]

/-- The field in the low bits, which is not shifted. -/
theorem extractLsb'_lowField {n : Nat} (x : BitVec n) (h : n ≤ 32) : (x.setWidth 32).extractLsb' 0 n = x := by
  simpa using extractLsb'_field (k := 0) x (by omega)

theorem extractLsb'_lowField_of_disjoint {n start len : Nat} (x : BitVec n) (h : n ≤ start) :
    (x.setWidth 32).extractLsb' start len = 0#len := by
  simpa using extractLsb'_field_of_disjoint (k := 0) x (.inr (by omega))

theorem extractLsb'_flagAt_of_disjoint {i start len : Nat} (f : Bool) (h : start + len ≤ i ∨ i < start) :
    (flagAt i f).extractLsb' start len = 0#len :=
  extractLsb'_field_of_disjoint _ h

/-! ## STATUS -/

theorem regRead_status (s : State) : s.regRead 0x00 = s.statusWord := regRead_regOffset s .status

theorem statusWord_getLsbD_busy (s : State) : s.statusWord.getLsbD 1 = true ↔ s.phase = .busy := by
  simp [State.statusWord, State.busy]

theorem statusWord_getLsbD_rvalid (s : State) : s.statusWord.getLsbD 3 = s.rvalid := by
  simp [State.statusWord]

/-- ERR is bits 11:8 of STATUS (R33). -/
theorem statusWord_err (s : State) : s.statusWord.extractLsb' 8 4 = s.err.code := by
  simp (disch := omega) only [State.statusWord, BitVec.extractLsb'_or, extractLsb'_flagAt_of_disjoint,
    extractLsb'_field, BitVec.zero_or]

/-- Above LOST only ERR is not reserved (R33). -/
theorem statusWord_reserved (s : State) {start len : Nat} (hlost : 5 ≤ start)
    (herr : start + len ≤ 8 ∨ 12 ≤ start) : s.statusWord.extractLsb' start len = 0#len := by
  simp (disch := omega) only [State.statusWord, BitVec.extractLsb'_or, extractLsb'_flagAt_of_disjoint,
    extractLsb'_field_of_disjoint, BitVec.or_self]

theorem code_toNat_le (e : ErrCode) : e.code.toNat ≤ 8 := by
  cases e <;> decide

/-- Settles O47: the flags are single bits, ERR is the code's field, and the values are those of R231's table. -/
theorem statusFieldLayout : Obligations.StatusFieldLayout := by
  intro s w
  have hw : w = s.statusWord := regRead_status s
  have herr {e : ErrCode} (he : s.err = e) : s.statusWord.extractLsb' 8 4 = e.code := he ▸ statusWord_err s
  rw [hw]
  exact ⟨statusWord_getLsbD_ready s, statusWord_getLsbD_busy s, statusWord_getLsbD_done s,
    statusWord_getLsbD_rvalid s, statusWord_getLsbD_lost s, statusWord_reserved s (by decide) (by decide),
    statusWord_err s, statusWord_reserved s (by decide) (by decide), herr, herr, herr, herr, herr, herr, herr, herr,
    herr, statusWord_err s ▸ code_toNat_le s.err⟩

/-! ## The counts -/

theorem keycntWord_k1Cnt (s : State) : s.keycntWord.extractLsb' 0 5 = BitVec.ofNat 5 s.k1.cnt := by
  simp (disch := omega) only [State.keycntWord, BitVec.extractLsb'_or, extractLsb'_flagAt_of_disjoint,
    extractLsb'_lowField, extractLsb'_field_of_disjoint, BitVec.or_zero]

theorem keycntWord_k2Cnt (s : State) : s.keycntWord.extractLsb' 8 5 = BitVec.ofNat 5 s.k2.cnt := by
  simp (disch := omega) only [State.keycntWord, BitVec.extractLsb'_or, extractLsb'_flagAt_of_disjoint,
    extractLsb'_lowField_of_disjoint, extractLsb'_field, BitVec.or_zero, BitVec.zero_or]

/-- The bits of KEYCNT between and above its fields (R40). -/
theorem keycntWord_reserved (s : State) {start len : Nat} (hk1 : 5 ≤ start)
    (h : start + len ≤ 7 ∨ (13 ≤ start ∧ start + len ≤ 15) ∨ 16 ≤ start) :
    s.keycntWord.extractLsb' start len = 0#len := by
  simp (disch := omega) only [State.keycntWord, BitVec.extractLsb'_or, extractLsb'_flagAt_of_disjoint,
    extractLsb'_lowField_of_disjoint, extractLsb'_field_of_disjoint, BitVec.or_self]

theorem keycntWord_ovf (s : State) : s.keycntWord.getLsbD 7 = s.k1.ovf ∧ s.keycntWord.getLsbD 15 = s.k2.ovf := by
  simp [State.keycntWord]

/-- LEN stands in the low bits (R41, R42). -/
theorem lenWord_len {width : Nat} (h : width ≤ 31) (b : Buffer) :
    (b.lenWord width).extractLsb' 0 width = BitVec.ofNat width b.len := by
  simp (disch := omega) only [Buffer.lenWord, BitVec.extractLsb'_or, extractLsb'_flagAt_of_disjoint,
    extractLsb'_lowField, BitVec.or_zero]

theorem lenWord_reserved {width start len : Nat} (hlow : width ≤ start) (hhigh : start + len ≤ 31) (b : Buffer) :
    (b.lenWord width).extractLsb' start len = 0#len := by
  simp (disch := omega) only [Buffer.lenWord, BitVec.extractLsb'_or, extractLsb'_flagAt_of_disjoint,
    extractLsb'_lowField_of_disjoint, BitVec.or_self]

/-- OVF is bit 31 (R41, R42). -/
theorem lenWord_ovf {width : Nat} (h : width ≤ 31) (b : Buffer) : (b.lenWord width).getLsbD 31 = b.ovf := by
  simp [Buffer.lenWord, BitVec.getLsbD_of_ge (BitVec.ofNat width b.len) 31 h]

/-- What the three length registers show of a buffer whose depth fits the field. -/
theorem lenWord_fields {b : Buffer} {cap width : Nat} (hb : b.Inv cap) (hcap : cap < 2 ^ width) (hwidth : width ≤ 31) :
    ((b.lenWord width).extractLsb' 0 width).toNat = b.elems.length ∧
      (b.lenWord width).extractLsb' width (31 - width) = 0#(31 - width) ∧ (b.lenWord width).getLsbD 31 = b.ovf := by
  have hlen : b.len < 2 ^ width := Nat.lt_of_le_of_lt hb.len_le hcap
  refine ⟨?_, lenWord_reserved (Nat.le_refl width) (by omega) b, lenWord_ovf hwidth b⟩
  rw [lenWord_len hwidth, BitVec.toNat_ofNat, Nat.mod_eq_of_lt hlen, Buffer.len]

/-- The bounds of legal depths (R8). -/
theorem Params.depths_le {p : Params} (hp : p.wellFormed = true) : p.vmax ≤ 131070 ∧ p.cmax ≤ 65535 := by
  simp only [Params.wellFormed, Params.vmaxOk, Params.cmaxOk, Bool.and_eq_true, decide_eq_true_eq] at hp
  obtain ⟨⟨_, _, hv⟩, _, hc⟩ := hp
  exact ⟨hv, hc⟩

/-- Settles O48: each field of a count is read back by itself, and no reachable count exceeds its field. -/
theorem countFieldLayout : Obligations.CountFieldLayout := by
  intro s hs k
  have hk : k = s.keycntWord := regRead_regOffset s .keycnt
  have hy : s.regRead 0x38 = s.ybuf.lenWord 17 := regRead_regOffset s .yLen
  have ht : s.regRead 0x44 = s.tbuf.lenWord 16 := regRead_regOffset s .tLen
  have ha : s.regRead 0x48 = s.abuf.lenWord 16 := regRead_regOffset s .aLen
  have hcnt {k : KeyStore} (hinv : k.Inv) : (BitVec.ofNat 5 k.cnt).toNat = k.cnt :=
    (BitVec.toNat_ofNat ..).trans (Nat.mod_eq_of_lt (Nat.lt_of_le_of_lt hinv.cnt_le (by decide)))
  obtain ⟨hvmax, hcmax⟩ := Params.depths_le hs.params_wf
  obtain ⟨hyLen, hyRes, hyOvf⟩ := lenWord_fields hs.ybuf_inv (width := 17) (by omega) (by decide)
  obtain ⟨htLen, htRes, htOvf⟩ := lenWord_fields hs.tbuf_inv (width := 16) (by omega) (by decide)
  obtain ⟨haLen, haRes, haOvf⟩ := lenWord_fields hs.abuf_inv (width := 16) (by omega) (by decide)
  obtain ⟨hovf1, hovf2⟩ := keycntWord_ovf s
  rw [hk, hy, ht, ha, keycntWord_k1Cnt, keycntWord_k2Cnt]
  exact ⟨hcnt hs.k1_inv, keycntWord_reserved s (by decide) (by decide), hovf1, hcnt hs.k2_inv,
    keycntWord_reserved s (by decide) (by decide), hovf2, keycntWord_reserved s (by decide) (by decide), hyLen, hyRes,
    hyOvf, htLen, htRes, htOvf, haLen, haRes, haOvf⟩

/-! ## The other registers -/

theorem regRead_reserved {off : Nat} (h : 0x54 ≤ off) (s : State) : s.regRead off = 0#32 := by
  simp [State.regRead, regAt_reserved h]

theorem ctrlWord_eq (s : State) : s.ctrlWord = if s.ie = true then 1#32 else 0#32 := by
  rw [State.ctrlWord]
  cases s.ie <;> rfl

/-- N is the low half of NM and M the high half (R38). -/
theorem nmWord_halves (s : State) : s.nmWord.extractLsb' 0 16 = s.n ∧ s.nmWord.extractLsb' 16 16 = s.m := by
  simp (disch := omega) only [State.nmWord, BitVec.extractLsb'_or, extractLsb'_lowField, extractLsb'_field,
    extractLsb'_field_of_disjoint, extractLsb'_lowField_of_disjoint, BitVec.or_zero, BitVec.zero_or, and_self]

/-- The registers that can only be written (R32, R74). -/
def writeOnlyRegs : List Reg := [.cmd, .key1Push, .key2Push, .yPush, .tagPush, .alphaPush]

theorem readReg_writeOnly {r : Reg} (h : r ∈ writeOnlyRegs) (s : State) : s.readReg r = 0#32 := by
  simp only [writeOnlyRegs, List.mem_cons, List.not_mem_nil, or_false] at h
  rcases h with rfl | rfl | rfl | rfl | rfl | rfl <;> rfl

/-- The two depth registers read the parameters, which fit 32 bits when they are legal (R43). -/
theorem regRead_depths {s : State} (hp : s.params.wellFormed = true) :
    (s.regRead 0x4C).toNat = s.params.vmax ∧ (s.regRead 0x50).toNat = s.params.cmax := by
  obtain ⟨hvmax, hcmax⟩ := Params.depths_le hp
  have hv : s.regRead 0x4C = BitVec.ofNat 32 s.params.vmax := regRead_regOffset s .vmax
  have hc : s.regRead 0x50 = BitVec.ofNat 32 s.params.cmax := regRead_regOffset s .cmax
  rw [hv, hc, BitVec.toNat_ofNat, BitVec.toNat_ofNat]
  exact ⟨Nat.mod_eq_of_lt (by omega), Nat.mod_eq_of_lt (by omega)⟩

/-- Settles O49: each offset is its register's, and NM and the depths are made of their fields. -/
theorem registerReads : Obligations.RegisterReads := by
  intro s hs
  have hread (r : Reg) : s.regRead (regOffset r) = s.readReg r := regRead_regOffset s r
  have hnm : s.regRead 0x14 = s.nmWord := hread .nm
  obtain ⟨hn, hm⟩ := nmWord_halves s
  obtain ⟨hvmax, hcmax⟩ := regRead_depths hs.params_wf
  refine ⟨(hread .ctrl).trans (ctrlWord_eq s), hread .result, hread .idr, hnm ▸ hn, hnm ▸ hm, hread .iv0, hread .iv1,
    hread .iv2, hread .iv3, hvmax, hcmax, ?writeOnly, fun off hoff _ _ => regRead_reserved hoff s⟩
  change ∀ off ∈ writeOnlyRegs.map regOffset, _
  exact List.forall_mem_map.mpr fun r hr => (hread r).trans (readReg_writeOnly hr s)

/-- Settles O50: of a key store and of a buffer a register shows the count and the flag, and of the table nothing. -/
theorem secretsAreNotReadable : Obligations.SecretsAreNotReadable := by
  intro s t hparams hready hphase hdone hrvalid hlost herr hie hresult hidr hn hm hiv0 hiv1 hiv2 hiv3 hcnt1 hovf1 hcnt2
    hovf2 hylen hyovf htlen htovf halen haovf
  refine (readsAlike_iff s t).mpr fun r => ?_
  cases r with
  | status => simp only [State.readReg, State.statusWord, State.busy, hready, hphase, hdone, hrvalid, hlost, herr]
  | ctrl => simp only [State.readReg, State.ctrlWord, hie]
  | nm => simp only [State.readReg, State.nmWord, hn, hm]
  | keycnt => simp only [State.readReg, State.keycntWord, hcnt1, hovf1, hcnt2, hovf2]
  | yLen => simp only [State.readReg, Buffer.lenWord, Buffer.len, hylen, hyovf]
  | tLen => simp only [State.readReg, Buffer.lenWord, Buffer.len, htlen, htovf]
  | aLen => simp only [State.readReg, Buffer.lenWord, Buffer.len, halen, haovf]
  | result | idr | iv0 | iv1 | iv2 | iv3 | vmax | cmax =>
    simp only [State.readReg, hresult, hidr, hiv0, hiv1, hiv2, hiv3, hparams]
  | cmd | key1Push | key2Push | yPush | tagPush | alphaPush => rfl

end Sys2Proof.Machine
end

section
/-! PROOFS. The key stores and the IV as a host fills them (spec/10_state.md R39, R40; spec/20_memory.md R76;
spec/30_encoding.md R108). -/

namespace Sys2Proof.Machine

/-! ## A key push -/

theorem keyStore_push_of_lt {k : KeyStore} (h : k.cnt < 16) (v : Word) :
    k.push v = ⟨k.bytes.set k.cnt (v.extractLsb' 0 8) h, k.cnt + 1, k.ovf⟩ :=
  dif_pos h

theorem keyStore_push_of_le {k : KeyStore} (h : 16 ≤ k.cnt) (v : Word) : k.push v = ⟨k.bytes, k.cnt, true⟩ :=
  dif_neg h.not_gt

theorem regWrite_key1Push {s : State} {k : KeyStore} (hs : s.phase = .idle) {v : Word} (h : s.k1.push v = k) :
    s.regWrite (regOffset .key1Push) v = { s with k1 := k } :=
  h ▸ regWrite_idle hs .key1Push v

theorem regWrite_key2Push {s : State} {k : KeyStore} (hs : s.phase = .idle) {v : Word} (h : s.k2.push v = k) :
    s.regWrite (regOffset .key2Push) v = { s with k2 := k } :=
  h ▸ regWrite_idle hs .key2Push v

/-- Settles O43: each port's write is the push into its store, which has one rule below 16 bytes and one at it. -/
theorem keyPush : Obligations.KeyPush := fun _ v hs =>
  ⟨fun h => regWrite_key1Push hs (keyStore_push_of_lt h v), fun h => regWrite_key1Push hs (keyStore_push_of_le h v),
    fun h => regWrite_key2Push hs (keyStore_push_of_lt h v), fun h => regWrite_key2Push hs (keyStore_push_of_le h v)⟩

/-! ## Loading a key -/

/-- The store after `bytes` have been pushed in order. -/
def KeyStore.pushBytes (bytes : List Byte) (k : KeyStore) : KeyStore :=
  bytes.foldl (fun k b => k.push (b.setWidth 32)) k

/-- Writes that push into a store, wherever it stands in the state, push their bytes into it in order. -/
theorem foldl_regWrite_push {off : Nat} {put : KeyStore → State}
    (hput : ∀ k v, (put k).regWrite off v = put (k.push v)) (bytes : List Byte) (k : KeyStore) :
    bytes.foldl (fun t b => t.regWrite off (b.setWidth 32)) (put k) = put (k.pushBytes bytes) :=
  List.foldl_hom put fun k b => hput k (b.setWidth 32)

/-- The store that holds the first `k` bytes of the key, the rest 0. -/
def partialKey (key : Vector Byte 16) (k : Nat) : KeyStore :=
  ⟨Vector.ofFn (fun i => if i.val < k then key[i] else 0#8), k, false⟩

theorem partialKey_zero (key : Vector Byte 16) : partialKey key 0 = KeyStore.empty := by
  have hbytes : Vector.ofFn (fun _ : Fin 16 => 0#8) = Vector.replicate 16 0#8 := rfl
  simp [partialKey, KeyStore.empty, hbytes]

theorem partialKey_full (key : Vector Byte 16) : partialKey key 16 = ⟨key, 16, false⟩ := by
  have hbytes : Vector.ofFn (fun i : Fin 16 => if i.val < 16 then key[i] else 0#8) = key :=
    Vector.ext fun i hi => by rw [Vector.getElem_ofFn, if_pos hi]; rfl
  rw [partialKey, hbytes]

/-- The next byte of the key goes to the index that the count names. -/
theorem partialKey_push (key : Vector Byte 16) {k : Nat} (hk : k < 16) :
    (partialKey key k).push (key[k].setWidth 32) = partialKey key (k + 1) := by
  have hbyte : (key[k].setWidth 32).extractLsb' 0 8 = key[k] := extractLsb'_lowField _ (by decide)
  have hbytes : (partialKey key k).bytes.set k key[k] hk = (partialKey key (k + 1)).bytes := by
    refine Vector.ext fun i hi => ?_
    by_cases heq : k = i
    · subst heq
      simp [partialKey]
    · have hlt : i < k ↔ i < k + 1 := by omega
      simp [partialKey, heq, hlt]
  rw [keyStore_push_of_lt hk, hbyte]
  exact congrArg (KeyStore.mk · (k + 1) false) hbytes

theorem pushBytes_concat (k : KeyStore) (bytes : List Byte) (b : Byte) :
    k.pushBytes (bytes ++ [b]) = (k.pushBytes bytes).push (b.setWidth 32) :=
  List.foldl_concat ..

theorem pushBytes_take (key : Vector Byte 16) {k : Nat} (hk : k ≤ 16) :
    KeyStore.empty.pushBytes (key.toList.take k) = partialKey key k := by
  induction k with
  | zero => exact (partialKey_zero key).symm
  | succ k ih =>
    have hget : key.toList[k]? = some key[k] := by simp [show k < 16 from hk]
    rw [List.take_add_one, hget, Option.toList_some, pushBytes_concat, ih (by omega), partialKey_push key hk]

theorem pushBytes_key (key : Vector Byte 16) : KeyStore.empty.pushBytes key.toList = ⟨key, 16, false⟩ := by
  rw [← partialKey_full, ← pushBytes_take key (Nat.le_refl 16), List.take_of_length_le (by simp)]

/-- Settles O44: the sixteen writes push the key's bytes in order, each of which takes its place. -/
theorem sixteenPushesLoadTheKey : Obligations.SixteenPushesLoadTheKey := by
  refine fun s key hs => ⟨fun hempty => ?_, fun hempty => ?_⟩
  · have hload : s.k1.pushBytes key.toList = ⟨key, 16, false⟩ := hempty ▸ pushBytes_key key
    rw [← hload]
    exact foldl_regWrite_push (put := fun k => { s with k1 := k }) (fun k _ => regWrite_key1Push (by exact hs) rfl) _ _
  · have hload : s.k2.pushBytes key.toList = ⟨key, 16, false⟩ := hempty ▸ pushBytes_key key
    rw [← hload]
    exact foldl_regWrite_push (put := fun k => { s with k2 := k }) (fun k _ => regWrite_key2Push (by exact hs) rfl) _ _

/-! ## The IV -/

/-- The four bytes packed into a word are its bytes, the first in the low byte (R39, R108). -/
theorem wordBytes_packWord (b0 b1 b2 b3 : Byte) : wordBytes (packWord b0 b1 b2 b3) = [b0, b1, b2, b3] := by
  simp (disch := omega) only [wordBytes, packWord, BitVec.extractLsb'_or, extractLsb'_field,
    extractLsb'_field_of_disjoint, extractLsb'_lowField, extractLsb'_lowField_of_disjoint, BitVec.or_zero,
    BitVec.zero_or]

theorem vector_toList_eq (iv : Vector Byte 16) :
    iv.toList = [iv[0], iv[1], iv[2], iv[3]] ++ [iv[4], iv[5], iv[6], iv[7]] ++ [iv[8], iv[9], iv[10], iv[11]] ++
      [iv[12], iv[13], iv[14], iv[15]] := by
  refine List.ext_getElem (by simp) fun i hi _ => ?_
  have hi16 : i < 16 := by simpa using hi
  interval_cases i <;> rfl

/-- The writes of the four IV registers while BUSY = 0 (R81). -/
theorem regWrite_ivs {s : State} (hs : s.phase = .idle) (w0 w1 w2 w3 : Word) :
    (((s.regWrite (regOffset .iv0) w0).regWrite (regOffset .iv1) w1).regWrite (regOffset .iv2) w2).regWrite
        (regOffset .iv3) w3 =
      { s with iv0 := w0, iv1 := w1, iv2 := w2, iv3 := w3 } := by
  have h1 := regWrite_idle (s := s.writeReg .iv0 w0) hs .iv1 w1
  have h2 := regWrite_idle (s := { s with iv0 := w0, iv1 := w1 }) hs .iv2 w2
  have h3 := regWrite_idle (s := { s with iv0 := w0, iv1 := w1, iv2 := w2 }) hs .iv3 w3
  rw [regWrite_idle hs, h1]
  exact (congrArg _ h2).trans h3

/-- Settles O22: the IV is the bytes of its four registers in order, and each write sets one of them. -/
theorem ivByteOrder : Obligations.IvByteOrder := by
  refine ⟨fun s => ⟨rfl, fun k hk => ?bytes⟩, fun s iv hs => ?writes⟩
  case bytes => interval_cases k <;> exact ⟨rfl, rfl, rfl, rfl⟩
  case writes =>
    intro t
    have ht := regWrite_ivs hs (packWord iv[0] iv[1] iv[2] iv[3]) (packWord iv[4] iv[5] iv[6] iv[7])
      (packWord iv[8] iv[9] iv[10] iv[11]) (packWord iv[12] iv[13] iv[14] iv[15])
    change t = _ at ht
    rw [ht]
    refine ⟨?_, rfl⟩
    simp only [State.ivBytes, wordBytes_packWord, vector_toList_eq]

end Sys2Proof.Machine
end

section
/-! PROOFS. What the host's turn does to the block, and the host's step access by access (spec/20_memory.md R73 to R75;
spec/30_encoding.md R107). -/

namespace Sys2Proof.Machine

/-- What the host's turn does to the block: nothing, LOST alone, or what a register that takes the write does (R75). -/
theorem hostTurn_effect {s t : State} (h : hostTurn s = .next t) :
    (∃ p q, t = { s with program := p, reads := q }) ∨
    ∃ r v rest, s.program = .wr (s.params.base + regOffset r) 4 v :: rest ∧
      ((regGuarded r = true ∧ s.phase = .busy ∧ t = { s with program := rest, lost := true }) ∨
        ((regGuarded r = false ∨ s.phase = .idle) ∧ t = { s with program := rest }.writeReg r v)) := by
  rcases hostTurn_cases h with ⟨_, rfl⟩ | ⟨addr, size, v, rest, off, hp, hadmit, rfl⟩ | ⟨off, rest, _, rfl⟩
  · exact .inl ⟨t.program, t.reads, rfl⟩
  · obtain ⟨hbase, _, rfl, _, hoff⟩ := (admitAccess_next_iff ..).mp hadmit
    have hprogram {r : Reg} (hr : regAt off = some r) : s.program = .wr (s.params.base + regOffset r) 4 v :: rest := by
      rw [hp, regOffset_of_regAt hr, hoff, Nat.add_sub_cancel' hbase]
    rcases regWrite_cases off v { s with program := rest } with ⟨_, e⟩ | ⟨r, hr, hg, hb, e⟩ | ⟨r, hr, htakes, e⟩ <;>
      rw [e]
    · exact .inl ⟨rest, s.reads, rfl⟩
    · exact .inr ⟨r, v, rest, hprogram hr, .inl ⟨hg, hb, rfl⟩⟩
    · exact .inr ⟨r, v, rest, hprogram hr, .inr ⟨htakes, rfl⟩⟩
  · exact .inl ⟨rest, _, rfl⟩

/-- A register write leaves the agents outside the block alone (R75). -/
theorem regWrite_outside (off : Nat) (v : Word) (s : State) :
    (s.regWrite off v).params = s.params ∧ (s.regWrite off v).program = s.program ∧
      (s.regWrite off v).reads = s.reads := by
  rcases regWrite_cases off v s with ⟨_, e⟩ | ⟨_, _, _, _, e⟩ | ⟨r, _, _, e⟩ <;> rw [e]
  · exact ⟨rfl, rfl, rfl⟩
  · exact ⟨rfl, rfl, rfl⟩
  · cases r <;> exact ⟨rfl, rfl, rfl⟩

/-- An aligned 32-bit access inside the window is admitted (R73). -/
theorem admitAccess_aligned {base off : Nat} (hoff : off < 256) (halign : (base + off) % 4 = 0) :
    admitAccess base (base + off) 4 = .next off :=
  (admitAccess_next_iff ..).mpr ⟨Nat.le_add_right .., by omega, rfl, halign, (Nat.add_sub_cancel_left ..).symm⟩

/-- The state the host finds: under reset, the block at its reset values (R260). -/
def State.seenByHost (s : State) : State := if s.resetIn = true then s.resetBlock else s

@[simp] theorem seenByHost_params (s : State) : s.seenByHost.params = s.params := by
  unfold State.seenByHost
  split <;> rfl

@[simp] theorem seenByHost_program (s : State) : s.seenByHost.program = s.program := by
  unfold State.seenByHost
  split <;> rfl

@[simp] theorem seenByHost_reads (s : State) : s.seenByHost.reads = s.reads := by
  unfold State.seenByHost
  split <;> rfl

/-- A host turn that changes nothing of the block is the host's step, whatever the reset input is. -/
theorem step_host_read {s : State} {p : List HostStmt} {q : List Word} (hn : s.nextTurn = .host)
    (h : hostTurn s.seenByHost.popTurn = .next { s.seenByHost.popTurn with program := p, reads := q }) :
    step s = .next { s.seenByHost with turns := s.turns.tail, program := p, reads := q } := by
  cases hr : s.resetIn with
  | false =>
    have hseen : s.seenByHost = s := if_neg (by simp [hr])
    rw [hseen] at h ⊢
    exact (step_host hr hn).trans h
  | true =>
    have hseen : s.seenByHost = s.resetBlock := if_pos hr
    rw [hseen] at h ⊢
    exact (step_host_held hr hn).trans (congrArg holdReset h)

/-- A write under reset moves the host on and leaves nothing written (R260). -/
theorem step_host_write_held {s : State} {addr size off : Nat} {v : Word} {rest : List HostStmt}
    (hr : s.resetIn = true) (hn : s.nextTurn = .host) (hp : s.program = .wr addr size v :: rest)
    (ha : admitAccess s.params.base addr size = .next off) :
    step s = .next { s.resetBlock with turns := s.turns.tail, program := rest } := by
  have hturn := hostTurn_wr (s := s.popTurn.resetBlock) hp ha
  obtain ⟨_, hprogram, hreads⟩ := regWrite_outside off v { s.popTurn.resetBlock with program := rest }
  rw [step_host_held hr hn, hturn, holdReset, hostTurn_resetBlock hturn, hprogram, hreads]
  rfl

theorem step_host_rd {s : State} {addr size off : Nat} {rest : List HostStmt} (hn : s.nextTurn = .host)
    (hp : s.program = .rd addr size :: rest) (ha : admitAccess s.params.base addr size = .next off) :
    step s =
      .next
        { s.seenByHost with
          turns := s.turns.tail, program := rest, reads := s.reads ++ [s.seenByHost.regRead off] } := by
  have hadmit : admitAccess s.seenByHost.params.base addr size = .next off := by rwa [seenByHost_params]
  rw [← seenByHost_reads s]
  exact step_host_read hn (hostTurn_rd (s := s.seenByHost.popTurn) ((seenByHost_program s).trans hp) hadmit)

theorem step_host_poll {s : State} {addr size off : Nat} {mask v : Word} {rest : List HostStmt}
    (hn : s.nextTurn = .host) (hp : s.program = .poll addr size mask v :: rest)
    (ha : admitAccess s.params.base addr size = .next off) :
    step s =
      .next
        { s.seenByHost with
          turns := s.turns.tail, program := if s.seenByHost.regRead off &&& mask = v then rest else s.program,
          reads := s.reads ++ [s.seenByHost.regRead off] } := by
  have hadmit : admitAccess s.seenByHost.params.base addr size = .next off := by rwa [seenByHost_params]
  rw [← seenByHost_reads s, ← seenByHost_program s]
  exact step_host_read hn (hostTurn_poll (s := s.seenByHost.popTurn) ((seenByHost_program s).trans hp) hadmit)

/-- Settles O51: the access is admitted, so the turn is the register's write or read; under reset the host finds the
reset values and its write is undone. -/
theorem hostAccessStep : Obligations.HostAccessStep := by
  intro s off v mask rest hn hoff halign b
  have hadmit : admitAccess s.params.base (s.params.base + off) 4 = .next off := admitAccess_aligned hoff halign
  have hb : b = s.seenByHost := rfl
  rw [hb]
  refine ⟨fun hr hp => ?write, fun hr hp => step_host_write_held hr hn hp hadmit, fun hp => step_host_rd hn hp hadmit,
    fun hp hval => ?pollEnds, fun hp hval => ?pollStays⟩
  case write => exact (step_host hr hn).trans (hostTurn_wr (s := s.popTurn) hp hadmit)
  case pollEnds => rw [step_host_poll hn hp hadmit, if_pos hval]
  case pollStays => rw [step_host_poll hn hp hadmit, if_neg hval, seenByHost_program]

end Sys2Proof.Machine
end

section
/-! PROOFS. A step under reset: whoever moves, the block is at its reset values after it (spec/10_state.md R53;
spec/70_reset_and_hazards.md R260, R261). -/

namespace Sys2Proof.Machine

theorem step_assertReset {s : State} (hn : s.nextTurn = .assertReset) : step s = .next s.popTurn.assertReset := by
  simp [step, runTurn, hn]

theorem step_releaseReset {s : State} (hn : s.nextTurn = .releaseReset) : step s = .next s.popTurn.releaseReset := by
  simp [step, runTurn, hn]

theorem releaseReset_of_held {s : State} (hr : s.resetIn = true) :
    s.releaseReset = { s.resetBlock with resetIn := false } :=
  if_pos hr

theorem underReset_iff (s : State) : s.underReset = true ↔ s.resetIn = true ∨ s.nextTurn = .assertReset := by
  simp [State.underReset]

/-- Every step under reset leaves the block at its reset values, and the input asserted unless it is the release
(R260). -/
theorem step_underReset {s t : State} (hu : s.underReset = true) (h : step s = .next t) :
    t = { s.resetBlock with
      resetIn := decide (s.nextTurn ≠ .releaseReset), turns := s.turns.tail, program := t.program,
      reads := t.reads } := by
  have hheld (hn : s.nextTurn ≠ .assertReset) : s.resetIn = true := ((underReset_iff s).mp hu).resolve_right hn
  rcases step_cases h with ⟨hr, hn, u, hturn, rfl⟩ | ⟨hr, hn, rfl⟩ | ⟨hn, rfl⟩ | ⟨hn, rfl⟩ | ⟨hr, hn, _⟩ | ⟨hr, hn, _⟩ |
    ⟨hr, k, hn, _⟩
  · have hnr : s.nextTurn ≠ .releaseReset := by simp [hn]
    rw [hostTurn_resetBlock hturn, decide_eq_true hnr, ← hr]
    rfl
  · have hnr : s.nextTurn ≠ .releaseReset := by
      rcases hn with hn | ⟨k, hn⟩ <;> simp [hn]
    rw [decide_eq_true hnr, ← hr]
    rfl
  · rw [hn]
    rfl
  · rw [releaseReset_of_held (s := s.popTurn) (hheld (by simp [hn])), hn]
    rfl
  all_goals
    rw [hheld (by simp [hn])] at hr
    cases hr

/-- An empty block reads 0 at every register but the two that show the parameters (R53). -/
theorem readReg_of_blockAtReset {s : State} (h : s.BlockAtReset) {r : Reg} (hv : r ≠ .vmax) (hc : r ≠ .cmax) :
    s.readReg r = 0#32 := by
  have hreset : s.resetBlock.readReg r = State.reset.readReg r := by
    cases r with
    | vmax => exact absurd rfl hv
    | cmax => exact absurd rfl hc
    | _ => rfl
  rw [← resetBlock_of_blockAtReset h, hreset]
  cases r with
  | vmax => exact absurd rfl hv
  | cmax => exact absurd rfl hc
  | _ => decide

theorem regRead_of_blockAtReset {s : State} (h : s.BlockAtReset) {off : Nat} (hv : off ≠ 0x4C) (hc : off ≠ 0x50) :
    s.regRead off = 0#32 := by
  cases hr : regAt off with
  | none => simp [State.regRead, hr]
  | some r =>
    have hoff := regOffset_of_regAt hr
    rw [← hoff, regRead_regOffset]
    refine readReg_of_blockAtReset h ?_ ?_ <;> rintro rfl
    · exact hv hoff.symm
    · exact hc hoff.symm

/-- Under reset every step but a host access answers a next state (R260). -/
theorem step_underReset_answers {s : State} (hu : s.underReset = true) (hn : s.nextTurn ≠ .host) :
    ∃ t : State, step s = .next t ∧ t.program = s.program ∧ t.reads = s.reads := by
  have hheld (hn : s.nextTurn ≠ .assertReset) : s.resetIn = true := ((underReset_iff s).mp hu).resolve_right hn
  cases hturn : s.nextTurn with
  | host => exact absurd hturn hn
  | engine => exact ⟨_, step_engine_held (hheld (by simp [hturn])) hturn, rfl, rfl⟩
  | initialiser k => exact ⟨_, step_initialiser_held (hheld (by simp [hturn])) hturn, rfl, rfl⟩
  | assertReset => exact ⟨_, step_assertReset hturn, rfl, rfl⟩
  | releaseReset =>
    refine ⟨_, step_releaseReset hturn, ?_⟩
    rw [releaseReset_of_held (s := s.popTurn) (hheld (by simp [hturn]))]
    exact ⟨rfl, rfl⟩

theorem step_underReset_blockAtReset {s t : State} (hu : s.underReset = true) (h : step s = .next t) :
    t.BlockAtReset := by
  rw [step_underReset hu h]
  exact resetBlock_blockAtReset s

/-- Settles O56: the step leaves the reset block, and a host reads a block at its reset values. -/
theorem resetTakesResetValues : Obligations.ResetTakesResetValues := by
  refine ⟨fun s => step_underReset_answers, fun s t hu h => ?_⟩
  have hblock := step_underReset_blockAtReset hu h
  have ht := step_underReset hu h
  refine ⟨ht, fun off _ _ hv hc => regRead_of_blockAtReset hblock hv hc, fun hp => ?depths, ?irq⟩
  case depths =>
    have hparams : t.params = s.params := (congrArg State.params ht).trans rfl
    exact regRead_depths (hparams ▸ hp)
  case irq =>
    obtain ⟨_, _, hdone, _⟩ := hblock
    exact irq_of_not_done hdone

end Sys2Proof.Machine
end

section
/-! PROOFS. Which steps end a command, change LOST or clear a key's overflow flag (spec/10_state.md R33, R47;
spec/20_memory.md R76). -/

namespace Sys2Proof.Machine

/-! ## The step of each agent with reset released -/

/-- A step that is not under reset is a release without effect, or the turn of one of the three agents (R6). -/
theorem step_released_cases {s t : State} (h : step s = .next t) (hu : s.underReset = false) :
    t = s.popTurn ∨ (s.nextTurn = .host ∧ hostTurn s.popTurn = .next t) ∨
      (s.nextTurn = .engine ∧ engineTurn s.popTurn = .next t) ∨
      ∃ k, s.nextTurn = .initialiser k ∧ t = s.popTurn.initialise k := by
  simp only [State.underReset, Bool.or_eq_false_iff, beq_eq_false_iff_ne] at hu
  obtain ⟨hr, hassert⟩ := hu
  rcases step_cases h with ⟨hheld, _⟩ | ⟨hheld, _⟩ | ⟨hn, _⟩ | ⟨_, rfl⟩ | ⟨_, hn, hturn⟩ | ⟨_, hn, hturn⟩ | ⟨_, k, hn, ht⟩
  · simp [hr] at hheld
  · simp [hr] at hheld
  · exact absurd hn hassert
  · exact .inl (releaseReset_of_released (s := s.popTurn) hr)
  · exact .inr (.inl ⟨hn, hturn⟩)
  · exact .inr (.inr (.inl ⟨hn, hturn⟩))
  · exact .inr (.inr (.inr ⟨k, hn, ht⟩))

/-- The initialiser touches the table and READY alone (R133). -/
theorem initialise_frame (k : Nat) (s : State) :
    s.initialise k = { s with lutWritten := (s.initialise k).lutWritten, ready := (s.initialise k).ready } := by
  rcases initialise_eq k s with e | ⟨_, e⟩ <;> rw [e]

/-! ## A command in flight -/

/-- While BUSY = 1 the host changes DONE, LOST and IE of the block and nothing else (R47, R79, R80). -/
theorem hostTurn_busy {s t : State} (hb : s.phase = .busy) (h : hostTurn s = .next t) :
    t = { s with done := t.done, lost := t.lost, ie := t.ie, program := t.program, reads := t.reads } := by
  rcases hostTurn_effect h with ⟨_, _, rfl⟩ | ⟨r, v, rest, _, ⟨_, _, rfl⟩ | ⟨htakes, rfl⟩⟩
  · rfl
  · rfl
  · have hg : regGuarded r = false := htakes.resolve_right (by simp [hb])
    cases r with
    | status | ctrl | result | keycnt | yLen | tLen | aLen | vmax | cmax => rfl
    | _ => cases hg

/-- Settles O57: of the agents only the engine ends a command, and the host's turn keeps to its three flags. -/
theorem commandInFlightIsUndisturbed : Obligations.CommandInFlightIsUndisturbed := by
  refine fun s t hb h => ⟨fun hidle => ?ends, fun hr hn => ?host⟩
  case ends =>
    by_contra hother
    rw [not_or, Bool.not_eq_true] at hother
    obtain ⟨hengine, hu⟩ := hother
    have hphase : t.phase = s.phase := by
      rcases step_released_cases h hu with rfl | ⟨_, hturn⟩ | ⟨hn, _⟩ | ⟨k, _, rfl⟩
      · rfl
      · exact (congrArg State.phase (hostTurn_busy (s := s.popTurn) hb hturn)).trans rfl
      · exact absurd hn hengine
      · exact (congrArg State.phase (initialise_frame k s.popTurn)).trans rfl
    rw [hphase, hb] at hidle
    cases hidle
  case host =>
    rw [step_host hr hn] at h
    rw [hostTurn_busy (s := s.popTurn) hb h]
    exact ⟨hb, rfl, rfl, rfl, rfl, rfl, rfl, rfl, rfl, rfl, rfl, rfl, rfl, rfl, rfl, rfl, rfl, rfl⟩

/-! ## LOST -/

theorem writeReg_lost {r : Reg} (hr : r ≠ .status) (v : Word) (s : State) : (s.writeReg r v).lost = s.lost := by
  cases r with
  | status => exact absurd rfl hr
  | _ => rfl

/-- What the host's turn can do to LOST (R47, R79). -/
theorem hostTurn_lost {s t : State} (h : hostTurn s = .next t) :
    t.lost = s.lost ∨
    (t.lost = true ∧ s.phase = .busy ∧ ∃ r v rest, regGuarded r = true ∧
      s.program = .wr (s.params.base + regOffset r) 4 v :: rest) ∨
    (t.lost = false ∧ ∃ v rest, s.program = .wr s.params.base 4 v :: rest ∧ v.getLsbD 4 = true) := by
  rcases hostTurn_effect h with ⟨_, _, rfl⟩ | ⟨r, v, rest, hp, ⟨hg, hb, rfl⟩ | ⟨_, rfl⟩⟩
  · exact .inl rfl
  · exact .inr (.inl ⟨rfl, hb, r, v, rest, hg, hp⟩)
  · by_cases hr : r = .status
    · subst hr
      cases hv : v.getLsbD 4 with
      | false => exact .inl (if_neg (Bool.eq_false_iff.mp hv))
      | true => exact .inr (.inr ⟨if_pos hv, v, rest, hp, hv⟩)
    · exact .inl (writeReg_lost hr v _)

/-- No other agent changes LOST. -/
theorem step_lost {s t : State} (h : step s = .next t) (hu : s.underReset = false) :
    t.lost = s.lost ∨ (s.nextTurn = .host ∧ hostTurn s.popTurn = .next t) := by
  rcases step_released_cases h hu with rfl | ⟨hn, hturn⟩ | ⟨_, hturn⟩ | ⟨k, _, rfl⟩
  · exact .inl rfl
  · exact .inr ⟨hn, hturn⟩
  · rcases engineTurn_cases s.popTurn with ⟨_, e⟩ | ⟨_, i, _, e⟩ | ⟨_, _, _, e⟩ <;> rw [e] at hturn
    · exact .inl (Host.Outcome.next.inj hturn ▸ rfl)
    · exact .inl ((congrArg State.lost (exec_frame hturn)).trans rfl)
    · exact .inl (Host.Outcome.next.inj hturn ▸ rfl)
  · exact .inl ((congrArg State.lost (initialise_frame k s.popTurn)).trans rfl)

/-- Settles O58: of the steps not under reset only the host's changes LOST, in its two ways. -/
theorem lostChangesOnlySo : Obligations.LostChangesOnlySo := by
  refine fun s t h => ⟨fun hlow hhigh => ?rise, fun hhigh hlow => ?fall⟩
  case rise =>
    have hu : s.underReset = false := by
      refine Bool.eq_false_iff.mpr fun hu => ?_
      obtain ⟨_, _, _, _, hlost, _⟩ := step_underReset_blockAtReset hu h
      simp [hlost] at hhigh
    rcases step_lost h hu with hsame | ⟨hn, hturn⟩
    · simp [hsame, hlow] at hhigh
    · rcases hostTurn_lost hturn with hsame | ⟨_, hb, r, v, rest, hg, hp⟩ | ⟨hfalse, _⟩
      · simp [hsame, hlow] at hhigh
      · exact ⟨hn, hb, regOffset r, List.mem_map_of_mem (f := regOffset) ((mem_guardedRegs r).mpr hg), v, rest, hp⟩
      · simp [hfalse] at hhigh
  case fall =>
    cases hu : s.underReset with
    | true => exact .inl rfl
    | false =>
      rcases step_lost h hu with hsame | ⟨hn, hturn⟩
      · simp [hsame, hhigh] at hlow
      · rcases hostTurn_lost hturn with hsame | ⟨htrue, _⟩ | ⟨_, v, rest, hp, hv⟩
        · simp [hsame, hhigh] at hlow
        · simp [htrue] at hlow
        · exact .inr ⟨hn, v, rest, hp, hv⟩

/-! ## An overflowed key -/

/-- No overflow flag of a key is cleared from `s` to `t`. -/
structure State.KeepsKeyOverflow (s t : State) : Prop where
  k1 : s.k1.ovf = true → t.k1.ovf = true
  k2 : s.k2.ovf = true → t.k2.ovf = true

theorem State.KeepsKeyOverflow.of_eq {s t : State} (h1 : t.k1 = s.k1) (h2 : t.k2 = s.k2) : s.KeepsKeyOverflow t :=
  ⟨fun h => h1 ▸ h, fun h => h2 ▸ h⟩

theorem keyStore_push_keeps_ovf {k : KeyStore} (h : k.ovf = true) (v : Word) : (k.push v).ovf = true := by
  rcases Nat.lt_or_ge k.cnt 16 with hlt | hge
  · rw [keyStore_push_of_lt hlt]; exact h
  · rw [keyStore_push_of_le hge]

theorem writeReg_keepsKeyOverflow (r : Reg) (v : Word) (s : State) : s.KeepsKeyOverflow (s.writeReg r v) := by
  cases r with
  | key1Push => exact ⟨fun h => keyStore_push_keeps_ovf h v, id⟩
  | key2Push => exact ⟨id, fun h => keyStore_push_keeps_ovf h v⟩
  | _ => exact .of_eq rfl rfl

theorem hostTurn_keepsKeyOverflow {s t : State} (h : hostTurn s = .next t) : s.KeepsKeyOverflow t := by
  rcases hostTurn_effect h with ⟨_, _, rfl⟩ | ⟨r, v, rest, _, ⟨_, _, rfl⟩ | ⟨_, rfl⟩⟩
  · exact .of_eq rfl rfl
  · exact .of_eq rfl rfl
  · obtain ⟨h1, h2⟩ := writeReg_keepsKeyOverflow r v { s with program := rest }
    exact ⟨h1, h2⟩

/-- Of the completions only that of CLRKEY changes a key (R213). -/
theorem engineTurn_keepsKeyOverflow {s t : State} (h : engineTurn s = .next t)
    (hclr : ¬ (s.phase = .busy ∧ decode s.cmdl = .ok .clrkey)) : s.KeepsKeyOverflow t := by
  rcases engineTurn_cases s with ⟨_, e⟩ | ⟨hb, i, hi, e⟩ | ⟨_, _, _, e⟩ <;> rw [e] at h
  · obtain rfl := Host.Outcome.next.inj h
    exact .of_eq rfl rfl
  · have hne : i ≠ .clrkey := by
      rintro rfl
      exact hclr ⟨hb, hi⟩
    obtain ⟨hkeys, _⟩ := exec_stores h
    obtain ⟨h1, h2⟩ := hkeys hne
    exact .of_eq h1 h2
  · obtain rfl := Host.Outcome.next.inj h
    exact .of_eq rfl rfl

theorem step_keepsKeyOverflow {s t : State} (h : step s = .next t) (hu : s.underReset = false)
    (hclr : ¬ (s.nextTurn = .engine ∧ s.phase = .busy ∧ decode s.cmdl = .ok .clrkey)) : s.KeepsKeyOverflow t := by
  rcases step_released_cases h hu with rfl | ⟨_, hturn⟩ | ⟨hn, hturn⟩ | ⟨k, _, rfl⟩
  · exact .of_eq rfl rfl
  · obtain ⟨h1, h2⟩ := hostTurn_keepsKeyOverflow hturn
    exact ⟨h1, h2⟩
  · obtain ⟨h1, h2⟩ := engineTurn_keepsKeyOverflow hturn fun hbusy => hclr ⟨hn, hbusy⟩
    exact ⟨h1, h2⟩
  · rw [initialise_frame]
    exact .of_eq rfl rfl

/-- Settles O45: every other step keeps both flags. -/
theorem keyOverflowIsSticky : Obligations.KeyOverflowIsSticky := by
  intro s t h hcleared
  by_contra hother
  rw [not_or, Bool.not_eq_true] at hother
  obtain ⟨hu, hclr⟩ := hother
  have hkeeps := step_keepsKeyOverflow h hu hclr
  rcases hcleared with ⟨hset, hclear⟩ | ⟨hset, hclear⟩
  · simp [hkeeps.k1 hset] at hclear
  · simp [hkeeps.k2 hset] at hclear

end Sys2Proof.Machine
end

section
/-! PROOFS. A host program that keeps to the defined accesses never stops the machine (spec/20_memory.md R73;
spec/60_exceptions.md R230). -/

namespace Sys2Proof.Machine

theorem admitAccess_of_stmtAdmitted {base addr size : Nat}
    (h : (decide (base ≤ addr) && decide (addr < base + 256) && size == 4 && addr % 4 == 0) = true) :
    admitAccess base addr size = .next (addr - base) := by
  simp only [Bool.and_eq_true, decide_eq_true_eq, beq_iff_eq] at h
  obtain ⟨⟨⟨hbase, hend⟩, hsize⟩, halign⟩ := h
  exact (admitAccess_next_iff ..).mpr ⟨hbase, hend, hsize, halign, rfl⟩

/-- A register access never fails (R230). -/
theorem hostTurn_answers {s : State} (hs : s.programAdmitted = true) : ∃ t, hostTurn s = .next t := by
  rw [State.programAdmitted] at hs
  cases hp : s.program with
  | nil => exact ⟨s, by simp [hostTurn, hp]⟩
  | cons stmt rest =>
    rw [hp, List.all_cons, Bool.and_eq_true] at hs
    obtain ⟨hstmt, _⟩ := hs
    cases stmt with
    | wr addr size v => exact ⟨_, hostTurn_wr hp (admitAccess_of_stmtAdmitted hstmt)⟩
    | rd addr size => exact ⟨_, hostTurn_rd hp (admitAccess_of_stmtAdmitted hstmt)⟩
    | poll addr size mask v => exact ⟨_, hostTurn_poll hp (admitAccess_of_stmtAdmitted hstmt)⟩

/-- Every command completes (R230). -/
theorem engineTurn_answers (s : State) : ∃ t, engineTurn s = .next t := by
  rcases engineTurn_cases s with ⟨_, e⟩ | ⟨_, i, _, e⟩ | ⟨_, _, _, e⟩
  · exact ⟨_, e⟩
  · obtain ⟨t, ht, _⟩ := everyCommandCompletes i s
    exact ⟨t, e.trans ht⟩
  · exact ⟨_, e⟩

/-- What admitting a program depends on, from `s` to `t`: the window stays, and statements are only taken off. -/
structure State.ProgramShrinks (s t : State) : Prop where
  params : t.params = s.params
  program : t.program <:+ s.program

theorem State.ProgramShrinks.programAdmitted {s t : State} (h : s.ProgramShrinks t) (hs : s.programAdmitted = true) :
    t.programAdmitted = true := by
  rw [State.programAdmitted, List.all_eq_true] at hs ⊢
  rw [h.params]
  exact fun stmt hstmt => hs stmt (h.program.subset hstmt)

theorem hostTurn_programShrinks {s t : State} (h : hostTurn s = .next t) : s.ProgramShrinks t := by
  rcases hostTurn_cases h with ⟨_, rfl⟩ | ⟨_, _, v, rest, off, hp, _, rfl⟩ | ⟨_, rest, hsuffix, rfl⟩
  · exact ⟨rfl, List.suffix_rfl⟩
  · obtain ⟨hparams, hprogram, _⟩ := regWrite_outside off v { s with program := rest }
    exact ⟨hparams, hprogram ▸ hp ▸ List.suffix_cons ..⟩
  · exact ⟨rfl, hsuffix⟩

theorem engineTurn_programShrinks {s t : State} (h : engineTurn s = .next t) : s.ProgramShrinks t := by
  rcases engineTurn_cases s with ⟨_, e⟩ | ⟨_, i, _, e⟩ | ⟨_, _, _, e⟩ <;> rw [e] at h
  · obtain rfl := Host.Outcome.next.inj h
    exact ⟨rfl, List.suffix_rfl⟩
  · rw [exec_frame h]
    exact ⟨rfl, List.suffix_rfl⟩
  · obtain rfl := Host.Outcome.next.inj h
    exact ⟨rfl, List.suffix_rfl⟩

theorem step_programShrinks {s t : State} (h : step s = .next t) : s.ProgramShrinks t := by
  have hpop {u : State} (hu : s.popTurn.ProgramShrinks u) : s.ProgramShrinks u := ⟨hu.params, hu.program⟩
  rcases step_cases h with ⟨_, _, u, hturn, rfl⟩ | ⟨_, _, rfl⟩ | ⟨_, rfl⟩ | ⟨_, rfl⟩ | ⟨_, _, hturn⟩ | ⟨_, _, hturn⟩ |
    ⟨_, k, _, rfl⟩
  · obtain ⟨hparams, hprogram⟩ := hostTurn_programShrinks hturn
    exact ⟨hparams, hprogram⟩
  · exact ⟨rfl, List.suffix_rfl⟩
  · exact ⟨rfl, List.suffix_rfl⟩
  · unfold State.releaseReset
    split <;> exact ⟨rfl, List.suffix_rfl⟩
  · exact hpop (hostTurn_programShrinks hturn)
  · exact hpop (engineTurn_programShrinks hturn)
  · rw [initialise_frame]
    exact ⟨rfl, List.suffix_rfl⟩

theorem step_answers {s : State} (hs : s.programAdmitted = true) : ∃ t, step s = .next t := by
  cases hn : s.nextTurn with
  | assertReset => exact ⟨_, step_assertReset hn⟩
  | releaseReset => exact ⟨_, step_releaseReset hn⟩
  | host =>
    cases hr : s.resetIn with
    | false =>
      obtain ⟨t, ht⟩ := hostTurn_answers (s := s.popTurn) hs
      exact ⟨t, (step_host hr hn).trans ht⟩
    | true =>
      obtain ⟨u, hu⟩ := hostTurn_answers (s := s.popTurn.resetBlock) hs
      exact ⟨u.resetBlock, (step_host_held hr hn).trans (congrArg holdReset hu)⟩
  | engine =>
    cases hr : s.resetIn with
    | false =>
      obtain ⟨t, ht⟩ := engineTurn_answers s.popTurn
      exact ⟨t, (step_engine hr hn).trans ht⟩
    | true => exact ⟨_, step_engine_held hr hn⟩
  | initialiser k =>
    cases hr : s.resetIn with
    | false => exact ⟨_, step_initialiser hr hn⟩
    | true => exact ⟨_, step_initialiser_held hr hn⟩

/-- Settles O53: an admitted program answers, and what is left of it is admitted. -/
theorem admittedProgramsAreSafe : Obligations.AdmittedProgramsAreSafe := by
  have hstep {s : State} (hs : s.programAdmitted = true) : ∃ t, step s = .next t ∧ t.programAdmitted = true := by
    obtain ⟨t, ht⟩ := step_answers hs
    exact ⟨t, ht, (step_programShrinks ht).programAdmitted hs⟩
  refine fun s hs => ⟨hstep hs, fun k => ?_⟩
  induction k generalizing s with
  | zero => trivial
  | succ k ih =>
    obtain ⟨t, ht, htadmitted⟩ := hstep hs
    exact ⟨t, ht, ih t htadmitted⟩

end Sys2Proof.Machine
end
